-- ==== Sys2Proof/Word.lean ====
section
/-! DEFINITION. The command word of the J1939-IDC block (30_encoding.md R71): one 48-bit vector, bit 0 the least
significant (00_scope.md R11). Every value of the block is an unsigned bit vector or a character string (R10). -/

namespace Sys2Proof

/-- A command word `cmd[47:0]` (R71). -/
abbrev Word := BitVec 48

/-- A character string of the spec (R10, R11), `t[0]` the first element. -/
abbrev Text := List Char

end Sys2Proof
end

