-- ==== Sys2Proof/Syntax.lean ====
section
/-! DEFINITION. The 26 commands, one constructor per row of spec/opcode_table.json (30_encoding.md R74), each operand
at exactly the width its payload format gives it (R72, 00_scope.md R16). -/

namespace Sys2Proof

/-- The two identifier formats (30_encoding.md R60): Standard (CBFF, 11 bits) and Extended (CEFF, 29 bits).
It is the value of `FMT` and of the `ext` operand bit of LDRAW and EQ (0 Standard, 1 Extended). -/
inductive Format where
  | std
  | ext
deriving DecidableEq, Repr

/-- A command with its operands (R72, R74). -/
inductive Instr where
  /-- R100: hex text, tokenised as digit count and value (R73). -/
  | ldhex (ndig : BitVec 4) (val : BitVec 32)
  /-- R101: raw number with a format flag. -/
  | ldraw (fmt : Format) (val : BitVec 32)
  /-- R102: Extended identifier from field values. -/
  | newx (prio : BitVec 3) (pgn : BitVec 24) (sa : BitVec 8) (da : BitVec 8)
  /-- R103: Standard identifier from field values. -/
  | news (prio : BitVec 3) (sa : BitVec 8)
  /-- R121 -/
  | gprio
  /-- R122 -/
  | gedp
  /-- R123 -/
  | gdp
  /-- R124 -/
  | gpf
  /-- R125 -/
  | gps
  /-- R126 -/
  | gsa
  /-- R131 -/
  | gda
  /-- R132 -/
  | gpgn
  /-- R141 -/
  | sprio (v : BitVec 3)
  /-- R142 -/
  | sedp (v : BitVec 1)
  /-- R143 -/
  | sdp (v : BitVec 1)
  /-- R144 -/
  | spf (v : BitVec 8)
  /-- R145 -/
  | sps (v : BitVec 8)
  /-- R146 -/
  | ssa (v : BitVec 8)
  /-- R147 -/
  | sda (v : BitVec 8)
  /-- R148 -/
  | spgn (v : BitVec 24)
  /-- R127 -/
  | gtype
  /-- R120 -/
  | gfmt
  /-- R161 -/
  | tohex
  /-- R162 -/
  | tobin
  /-- R163 -/
  | dump
  /-- R165: the other identifier as an immediate. -/
  | eq (fmt : Format) (val : BitVec 29)
deriving DecidableEq, Repr

end Sys2Proof
end

