-- ==== Sys2Proof/WellFormed.lean ====
section
/-! DEFINITION. Which instructions some command word spells. Operand widths are in the types (00_scope.md R16), so one
check is left: 30_encoding.md R75 (c), an LDHEX operand that no hex text can have. -/

namespace Sys2Proof

/-- R75 (c) read positively: some hex text is tokenised to this operand (R73). With 1 to 7 digits the value is below
`16^ndig`; with 8 digits every 32-bit value has a text; with 0 or 9..15 the `val` field is ignored. -/
def someTextHas (ndig : BitVec 4) (val : BitVec 32) : Bool :=
  decide (ndig = 0#4) || decide (8 ≤ ndig.toNat) || decide (val.toNat < 16 ^ ndig.toNat)

/-- The instruction is spelled by a legal command word (R75). -/
def Instr.wf : Instr → Bool
  | .ldhex ndig val => someTextHas ndig val
  | .ldraw _ _ => true
  | .newx _ _ _ _ => true
  | .news _ _ => true
  | .gprio => true
  | .gedp => true
  | .gdp => true
  | .gpf => true
  | .gps => true
  | .gsa => true
  | .gda => true
  | .gpgn => true
  | .sprio _ => true
  | .sedp _ => true
  | .sdp _ => true
  | .spf _ => true
  | .sps _ => true
  | .ssa _ => true
  | .sda _ => true
  | .spgn _ => true
  | .gtype => true
  | .gfmt => true
  | .tohex => true
  | .tobin => true
  | .dump => true
  | .eq _ _ => true

end Sys2Proof
end

