-- ==== Sys2Proof/Decode.lean ====
section
/-! DEFINITION. The decoder, total on all 2^48 command words and rejecting the illegal ones by name (30_encoding.md
R71 to R75), and the encoder written from the same table. -/

namespace Sys2Proof

/-- Why a word is illegal (R75). All three are answered IllegalCmd. -/
inductive IllegalWord where
  /-- R75 (a): `op` is one of 0x00, 0x05, 0x06, 0x07, 0x1E, 0x1F. -/
  | reservedOp
  /-- R75 (b): a payload bit the format does not name is 1. -/
  | reservedBit
  /-- R75 (c): LDHEX with `ndig` in 1..7 and `val >= 16^ndig`. -/
  | hexOperand
deriving DecidableEq, Repr

/-- `cmd[47:43]`, the operation code (R71). -/
def opOf (w : Word) : BitVec 5 := w.extractLsb' 43 5

/-- The operand bit `ext` of LDRAW and EQ: 0 Standard, 1 Extended (R72, R80). -/
def formatOfBit (e : BitVec 1) : Format := if e = 1#1 then .ext else .std

/-- The bit a format is assembled to, and the value of `FMT` (R20, R80). -/
def Format.bit : Format → BitVec 1
  | .std => 0#1
  | .ext => 1#1

/-- The `len` bits of `w` from bit `lo` up are reserved: `i` if they are all 0, else R75 (b). -/
def reservedZero (w : Word) (lo len : Nat) (i : Instr) : Except IllegalWord Instr :=
  if w.extractLsb' lo len = 0#len then .ok i else .error .reservedBit

/-- R75 (c): `ndig` in 1..7 and `val >= 16^ndig`, an LDHEX operand no text can have. -/
def hexOperandIllegal (ndig : BitVec 4) (val : BitVec 32) : Bool :=
  decide (1 ≤ ndig.toNat) && decide (ndig.toNat ≤ 7) && decide (16 ^ ndig.toNat ≤ val.toNat)

/-- The decoder: the operation code of R74, then the payload format of R72. -/
def decode (w : Word) : Except IllegalWord Instr :=
  match (opOf w).toNat with
  | 0x01 =>
    if hexOperandIllegal (w.extractLsb' 32 4) (w.extractLsb' 0 32) then .error .hexOperand
    else reservedZero w 36 7 (.ldhex (w.extractLsb' 32 4) (w.extractLsb' 0 32))
  | 0x02 => reservedZero w 33 10 (.ldraw (formatOfBit (w.extractLsb' 32 1)) (w.extractLsb' 0 32))
  | 0x03 => .ok (.newx (w.extractLsb' 40 3) (w.extractLsb' 16 24) (w.extractLsb' 8 8) (w.extractLsb' 0 8))
  | 0x04 => reservedZero w 11 32 (.news (w.extractLsb' 8 3) (w.extractLsb' 0 8))
  | 0x08 => reservedZero w 0 43 .gprio
  | 0x09 => reservedZero w 0 43 .gedp
  | 0x0A => reservedZero w 0 43 .gdp
  | 0x0B => reservedZero w 0 43 .gpf
  | 0x0C => reservedZero w 0 43 .gps
  | 0x0D => reservedZero w 0 43 .gsa
  | 0x0E => reservedZero w 0 43 .gda
  | 0x0F => reservedZero w 0 43 .gpgn
  | 0x10 => reservedZero w 3 40 (.sprio (w.extractLsb' 0 3))
  | 0x11 => reservedZero w 1 42 (.sedp (w.extractLsb' 0 1))
  | 0x12 => reservedZero w 1 42 (.sdp (w.extractLsb' 0 1))
  | 0x13 => reservedZero w 8 35 (.spf (w.extractLsb' 0 8))
  | 0x14 => reservedZero w 8 35 (.sps (w.extractLsb' 0 8))
  | 0x15 => reservedZero w 8 35 (.ssa (w.extractLsb' 0 8))
  | 0x16 => reservedZero w 8 35 (.sda (w.extractLsb' 0 8))
  | 0x17 => reservedZero w 24 19 (.spgn (w.extractLsb' 0 24))
  | 0x18 => reservedZero w 0 43 .gtype
  | 0x19 => reservedZero w 0 43 .gfmt
  | 0x1A => reservedZero w 0 43 .tohex
  | 0x1B => reservedZero w 0 43 .tobin
  | 0x1C => reservedZero w 0 43 .dump
  | 0x1D => reservedZero w 30 13 (.eq (formatOfBit (w.extractLsb' 29 1)) (w.extractLsb' 0 29))
  | _ => .error .reservedOp

/-- The encoder: the operation code of R74, reserved bits 0, the operands where R72 puts them. -/
def encode : Instr → Word
  | .ldhex ndig val => 0x01#5 ++ 0#7 ++ ndig ++ val
  | .ldraw fmt val => 0x02#5 ++ 0#10 ++ fmt.bit ++ val
  | .newx prio pgn sa da => 0x03#5 ++ prio ++ pgn ++ sa ++ da
  | .news prio sa => 0x04#5 ++ 0#32 ++ prio ++ sa
  | .gprio => 0x08#5 ++ 0#43
  | .gedp => 0x09#5 ++ 0#43
  | .gdp => 0x0A#5 ++ 0#43
  | .gpf => 0x0B#5 ++ 0#43
  | .gps => 0x0C#5 ++ 0#43
  | .gsa => 0x0D#5 ++ 0#43
  | .gda => 0x0E#5 ++ 0#43
  | .gpgn => 0x0F#5 ++ 0#43
  | .sprio v => 0x10#5 ++ 0#40 ++ v
  | .sedp v => 0x11#5 ++ 0#42 ++ v
  | .sdp v => 0x12#5 ++ 0#42 ++ v
  | .spf v => 0x13#5 ++ 0#35 ++ v
  | .sps v => 0x14#5 ++ 0#35 ++ v
  | .ssa v => 0x15#5 ++ 0#35 ++ v
  | .sda v => 0x16#5 ++ 0#35 ++ v
  | .spgn v => 0x17#5 ++ 0#19 ++ v
  | .gtype => 0x18#5 ++ 0#43
  | .gfmt => 0x19#5 ++ 0#43
  | .tohex => 0x1A#5 ++ 0#43
  | .tobin => 0x1B#5 ++ 0#43
  | .dump => 0x1C#5 ++ 0#43
  | .eq fmt val => 0x1D#5 ++ 0#13 ++ fmt.bit ++ val

/-- An instruction whose first `nbits` bits are those of `w` and whose other bits are 0, as the block's command word.
The block has one 48-bit word, so bit 0 of the table is `cmd[0]` (R71, opcode_table.json). -/
def tableWord (nbits w : Nat) : Word := BitVec.ofNat 48 (w % 2 ^ nbits)

/-- What the decoder reads from a word as opcode_table.json numbers it. -/
def decodeTableWord (nbits w : Nat) : Option Instr :=
  match decode (tableWord nbits w) with
  | .ok i => some i
  | .error _ => none

/-- One row of R74's opcode map as opcode_table.json writes it: `mask` is 1 at every fixed bit, `fixed` the row's
`match`. -/
structure OpcodeRow where
  mnemonic : String
  mask : Word
  fixed : Word
deriving DecidableEq, Repr

/-- `w` matches the row: `(w & mask) == match` (R74). -/
def OpcodeRow.matchesWord (r : OpcodeRow) (w : Word) : Bool := w &&& r.mask == r.fixed

/-- The 26 rows of opcode_table.json, transcribed; the decoder does not use them. -/
def opcodeRows : List OpcodeRow :=
  [⟨"LDHEX", 0xFFF000000000#48, 0x080000000000#48⟩, ⟨"LDRAW", 0xFFFE00000000#48, 0x100000000000#48⟩,
   ⟨"NEWX", 0xF80000000000#48, 0x180000000000#48⟩, ⟨"NEWS", 0xFFFFFFFFF800#48, 0x200000000000#48⟩] ++
  [⟨"GPRIO", 0xFFFFFFFFFFFF#48, 0x400000000000#48⟩, ⟨"GEDP", 0xFFFFFFFFFFFF#48, 0x480000000000#48⟩,
   ⟨"GDP", 0xFFFFFFFFFFFF#48, 0x500000000000#48⟩, ⟨"GPF", 0xFFFFFFFFFFFF#48, 0x580000000000#48⟩,
   ⟨"GPS", 0xFFFFFFFFFFFF#48, 0x600000000000#48⟩, ⟨"GSA", 0xFFFFFFFFFFFF#48, 0x680000000000#48⟩,
   ⟨"GDA", 0xFFFFFFFFFFFF#48, 0x700000000000#48⟩, ⟨"GPGN", 0xFFFFFFFFFFFF#48, 0x780000000000#48⟩] ++
  [⟨"SPRIO", 0xFFFFFFFFFFF8#48, 0x800000000000#48⟩, ⟨"SEDP", 0xFFFFFFFFFFFE#48, 0x880000000000#48⟩,
   ⟨"SDP", 0xFFFFFFFFFFFE#48, 0x900000000000#48⟩, ⟨"SPF", 0xFFFFFFFFFF00#48, 0x980000000000#48⟩,
   ⟨"SPS", 0xFFFFFFFFFF00#48, 0xA00000000000#48⟩, ⟨"SSA", 0xFFFFFFFFFF00#48, 0xA80000000000#48⟩,
   ⟨"SDA", 0xFFFFFFFFFF00#48, 0xB00000000000#48⟩, ⟨"SPGN", 0xFFFFFF000000#48, 0xB80000000000#48⟩] ++
  [⟨"GTYPE", 0xFFFFFFFFFFFF#48, 0xC00000000000#48⟩, ⟨"GFMT", 0xFFFFFFFFFFFF#48, 0xC80000000000#48⟩,
   ⟨"TOHEX", 0xFFFFFFFFFFFF#48, 0xD00000000000#48⟩, ⟨"TOBIN", 0xFFFFFFFFFFFF#48, 0xD80000000000#48⟩,
   ⟨"DUMP", 0xFFFFFFFFFFFF#48, 0xE00000000000#48⟩, ⟨"EQ", 0xFFFFC0000000#48, 0xE80000000000#48⟩]

/-- The mnemonic of R74. -/
def Instr.mnemonic : Instr → String
  | .ldhex _ _ => "LDHEX"
  | .ldraw _ _ => "LDRAW"
  | .newx _ _ _ _ => "NEWX"
  | .news _ _ => "NEWS"
  | .gprio => "GPRIO"
  | .gedp => "GEDP"
  | .gdp => "GDP"
  | .gpf => "GPF"
  | .gps => "GPS"
  | .gsa => "GSA"
  | .gda => "GDA"
  | .gpgn => "GPGN"
  | .sprio _ => "SPRIO"
  | .sedp _ => "SEDP"
  | .sdp _ => "SDP"
  | .spf _ => "SPF"
  | .sps _ => "SPS"
  | .ssa _ => "SSA"
  | .sda _ => "SDA"
  | .spgn _ => "SPGN"
  | .gtype => "GTYPE"
  | .gfmt => "GFMT"
  | .tohex => "TOHEX"
  | .tobin => "TOBIN"
  | .dump => "DUMP"
  | .eq _ _ => "EQ"

end Sys2Proof
end

