-- ==== Sys2Proof/Config.lean ====
section
/-! DEFINITION. The constants the source fixes (00_scope.md R7) and the one parameter it leaves to the implementation,
PGN_REJECT_POLICY (R8). No other parameter exists, and no result of the block is left open, so there is no free value. -/

namespace Sys2Proof

/-- PGN_REJECT_POLICY (R8, 92_eei_decisions.md D9): what the identifier holds after `SPGN` fails with InvalidPgn.
Its level on the strap `policy` (R18) is `Machine.policyLevel`. -/
inductive PgnRejectPolicy where
  /-- ROLLBACK: the identifier is what it was before the command. -/
  | rollback
  /-- PARTIAL: the four decomposed fields stay written. -/
  | keepPartial
deriving DecidableEq, Repr

namespace Config

/-- MAX_STD, the largest Standard raw value (R7). -/
abbrev maxStd : Nat := 0x7FF

/-- MAX_EXT, the largest Extended raw value (R7). -/
abbrev maxExt : Nat := 0x1FFFFFFF

/-- PDU1_LIMIT: `pf` below it is PDU type 1 (R7). -/
abbrev pdu1Limit : Nat := 240

/-- DA_GLOBAL, the destination address read under PDU type 2 (R7). -/
def daGlobal : BitVec 8 := 255#8

/-- DEFAULT_PRIORITY of the constructors (R7). -/
abbrev defaultPriority : Nat := 3

/-- DEFAULT_PGN, DEFAULT_SA, DEFAULT_DA of the constructors (R7). -/
abbrev defaultOperand : Nat := 0

/-- HEX_MAX_DIGITS, the longest accepted digit string (R7). -/
abbrev hexMaxDigits : Nat := 8

/-- HEX_STD_MAX_DIGITS: a string of at most this many digits may select Standard (R7). -/
abbrev hexStdMaxDigits : Nat := 4

/-- HEX_DIGITS_STD, the digits a Standard identifier renders to (R7). -/
abbrev hexDigitsStd : Nat := 4

/-- HEX_DIGITS_EXT, the digits an Extended identifier renders to (R7). -/
abbrev hexDigitsExt : Nat := 8

/-- The default of PGN_REJECT_POLICY, to be used when a model must fix one (R8, D9). -/
def defaultPolicy : PgnRejectPolicy := .rollback

end Config
end Sys2Proof
end

