-- ==== Sys2Proof/Machine/State.lean ====
section
/-! DEFINITION. The architectural state of J1939-IDC (10_state.md), the response (30_encoding.md R76, R77), the events
on the block's input ports (00_scope.md R18, R19), and the machine's state after reset. All plain data. -/

namespace Sys2Proof.Machine

/-- An identifier: a format and the bit sequence of exactly that format's width (R21, R22, R60). The constructor is
`FMT`; the vector is `ID[10:0]` or `ID[28:0]`, its most significant bit the source's offset 0 (R41). -/
inductive Ident where
  | std (s : BitVec 11)
  | ext (b : BitVec 29)
deriving DecidableEq, Repr

/-- How a command ends (R77, R180). The reserved code 7 is never produced, so the type has no value for it (U8). -/
inductive Status where
  | ok
  | outOfRange
  | wrongFormat
  | invalidPgn
  | malformedHex
  | noIdentifier
  | illegalCmd
deriving DecidableEq, Repr

/-- A response as the ports `rsp_status`, `rsp_diag`, `rsp_len`, `rsp_data` carry it (R18, R76). -/
structure Response where
  status : Status
  diag : Bool
  len : BitVec 6
  data : BitVec 96
deriving DecidableEq, Repr

/-- What the host does at the block's inputs between two responses (R19): it presents a command word (`cmd_valid`,
`cmd`), or it asserts `rst`. -/
inductive HostEvent where
  | command (w : Word)
  | rst
deriving DecidableEq, Repr

/-- The state. `slot` is the block's whole architectural state (R20) in the view of R21: `none` is `VALID = 0`;
`some (.std s)` is `VALID = 1, FMT = STD, ID = zext_29(s)`; `some (.ext b)` is `VALID = 1, FMT = EXT, ID = b`.
The other fields are the block's ports, held here because a step has one argument: the strap (R8, R29; log entry 1),
what the host will do, first event first (R27, D19; log entry 3), and the responses given, oldest first (R18; log
entry 4). No command reads `output`: nothing is latched (R28). -/
structure State where
  slot : Option Ident
  policy : PgnRejectPolicy
  input : List HostEvent
  output : List Response
deriving DecidableEq, Repr

/-- The reasons the machine stops with a fault: none. Every error of the block is a status of its response and the
block accepts the next command (R180, R193), so no step of the model faults. -/
inductive Fault where
deriving DecidableEq, Repr

/-- The reasons a step has no meaning. -/
inductive Refusal where
  /-- Raised by `exec` for an instruction that has no meaning yet, by its mnemonic (no arm does). Safe: the run stops. -/
  | notModelled (mnemonic : String)
deriving DecidableEq, Repr

/-- The machine right after reset: `VALID = 0`, `FMT` and `ID` without a value (R34, R210); the strap at the spec's
default (R8, D9); no event presented and no response given (log entries 1, 3, 4). -/
def State.reset : State where
  slot := none
  policy := Config.defaultPolicy
  input := []
  output := []

end Sys2Proof.Machine
end

