-- ==== Sys2Proof/Machine/Text.lean ====
section
/-! DEFINITION. The text forms: hex and binary rendering, and the reading of hex text (30_encoding.md R66 to R68, R73).
A character is Lean's `Char`, whose code for these characters is ASCII's (93_implementation_defined.md K1). -/

namespace Sys2Proof.Machine

/-- The digit characters of R66. -/
def hexDigits : Text := ['0', '1', '2', '3', '4', '5', '6', '7', '8', '9', 'A', 'B', 'C', 'D', 'E', 'F']

/-- The uppercase digit of a nibble (R66). -/
def hexDigit (d : BitVec 4) : Char := hexDigits.getD d.toNat '0'

/-- `HexText(v, n)`: character `k` is the digit of `v[4(n-k)-1 : 4(n-k-1)]` (R66). -/
def hexText (n : Nat) (v : BitVec (4 * n)) : Text :=
  (List.range n).map fun k => hexDigit (v.extractLsb' (4 * (n - k - 1)) 4)

/-- `BinText(v, n)`: character `k` is `'1'` iff `v[n-1-k] = 1` (R68). -/
def binText (n : Nat) (v : BitVec n) : Text :=
  (List.range n).map fun k => if v.getLsbD (n - 1 - k) then '1' else '0'

/-- `digit` of R67: the value of one of the 22 digit characters, none for any other character. -/
def digitVal (c : Char) : Option Nat :=
  if '0'.toNat ≤ c.toNat ∧ c.toNat ≤ '9'.toNat then some (c.toNat - '0'.toNat)
  else if 'a'.toNat ≤ c.toNat ∧ c.toNat ≤ 'f'.toNat then some (c.toNat - 'a'.toNat + 10)
  else if 'A'.toNat ≤ c.toNat ∧ c.toNat ≤ 'F'.toNat then some (c.toNat - 'A'.toNat + 10)
  else none

/-- The character is a hex digit (R67). -/
def isHexDigit (c : Char) : Bool := (digitVal c).isSome

/-- The text with the exact two characters `0x` removed once from its front, if they stand there (R67). -/
def stripHexMark : Text → Text
  | '0' :: 'x' :: u => u
  | u => u

/-- The sum of `digit(u[i]) * base^(len-1-i)` (R67 with base 16), most significant digit first (R43). -/
def digitsValue (base : Nat) (u : Text) : Nat :=
  u.foldl (fun acc c => acc * base + (digitVal c).getD 0) 0

/-- `HexParse(t)`: digit count and value, or none for MalformedHex (R67). -/
def hexParse (t : Text) : Option (Nat × Nat) :=
  let u := stripHexMark t
  if u.length = 0 then none
  else if !u.all isHexDigit then none
  else if Config.hexMaxDigits < u.length then none
  else some (u.length, digitsValue 16 u)

/-- `HexCmd(t)`: the operands `(ndig, val)` that the front end makes of a text (R73). -/
def hexCmd (t : Text) : BitVec 4 × BitVec 32 :=
  match hexParse t with
  | some (n, v) => (BitVec.ofNat 4 n, BitVec.ofNat 32 v)
  | none =>
    let u := stripHexMark t
    if u.all isHexDigit && decide (Config.hexMaxDigits < u.length) then (BitVec.ofNat 4 (min u.length 15), 0#32)
    else (0#4, 0#32)

end Sys2Proof.Machine
end

