-- ==== Sys2Proof/Machine/Ops.lean ====
section
/-! DEFINITION. The operations shared by the meanings: the identifier's layouts (30_encoding.md R61, R62, R65), the
derived values (41_field_read.md R128 to R130), the response (R76), the ending of a command with an error, which is this
block's exception (00_scope.md R12, 60_exceptions.md R192), the preambles of R133, R140 and R166, and the taking of the
host's next event. -/

namespace Sys2Proof.Machine

/-! ### Bit ranges -/

/-- The `w` bits of `b` from bit `lo` up: a masked read (R135). -/
def getField {n : Nat} (b : BitVec n) (lo w : Nat) : BitVec w := b.extractLsb' lo w

/-- `b` with the bits from `lo` up replaced by `v`: a masked in-place write, every other bit kept (R12, R152). -/
def putField {n w : Nat} (b : BitVec n) (lo : Nat) (v : BitVec w) : BitVec n :=
  (b &&& ~~~((BitVec.allOnes w).setWidth n <<< lo)) ||| (v.setWidth n <<< lo)

/-! ### Standard layout (R61) -/

/-- `s[10:8]` -/
def sPrio (s : BitVec 11) : BitVec 3 := getField s 8 3

/-- `s[7:0]` -/
def sSa (s : BitVec 11) : BitVec 8 := getField s 0 8

/-- `s` with `s[10:8] <- v` -/
def putSPrio (s : BitVec 11) (v : BitVec 3) : BitVec 11 := putField s 8 v

/-- `s` with `s[7:0] <- v` -/
def putSSa (s : BitVec 11) (v : BitVec 8) : BitVec 11 := putField s 0 v

/-! ### Extended layout (R62) -/

/-- `b[28:26]` -/
def xPrio (b : BitVec 29) : BitVec 3 := getField b 26 3

/-- `b[25]` -/
def xEdp (b : BitVec 29) : BitVec 1 := getField b 25 1

/-- `b[24]` -/
def xDp (b : BitVec 29) : BitVec 1 := getField b 24 1

/-- `b[23:16]` -/
def xPf (b : BitVec 29) : BitVec 8 := getField b 16 8

/-- `b[15:8]` -/
def xPs (b : BitVec 29) : BitVec 8 := getField b 8 8

/-- `b[7:0]` -/
def xSa (b : BitVec 29) : BitVec 8 := getField b 0 8

/-- `b` with `b[28:26] <- v` -/
def putXPrio (b : BitVec 29) (v : BitVec 3) : BitVec 29 := putField b 26 v

/-- `b` with `b[25] <- v` -/
def putXEdp (b : BitVec 29) (v : BitVec 1) : BitVec 29 := putField b 25 v

/-- `b` with `b[24] <- v` -/
def putXDp (b : BitVec 29) (v : BitVec 1) : BitVec 29 := putField b 24 v

/-- `b` with `b[23:16] <- v` -/
def putXPf (b : BitVec 29) (v : BitVec 8) : BitVec 29 := putField b 16 v

/-- `b` with `b[15:8] <- v` -/
def putXPs (b : BitVec 29) (v : BitVec 8) : BitVec 29 := putField b 8 v

/-- `b` with `b[7:0] <- v` -/
def putXSa (b : BitVec 29) (v : BitVec 8) : BitVec 29 := putField b 0 v

/-! ### PDU type, destination address, PGN -/

/-- The two PDU types: 1 destination-specific, 2 broadcast group extension (R128). -/
inductive PduType where
  | type1
  | type2
deriving DecidableEq, Repr

/-- `PduType(pf)`: 1 iff `pf < 240`, unsigned; `pf = 0` is type 1 (R128, R217). -/
def pduType (pf : BitVec 8) : PduType := if pf.toNat < Config.pdu1Limit then .type1 else .type2

/-- The 2-bit number GTYPE and DUMP return (R127). -/
def PduType.code : PduType → BitVec 2
  | .type1 => 1#2
  | .type2 => 2#2

/-- `Da(b)`: `ps` under type 1, 255 under type 2 (R129). -/
def destAddr (b : BitVec 29) : BitVec 8 :=
  match pduType (xPf b) with
  | .type1 => xPs b
  | .type2 => Config.daGlobal

/-- `Pgn(b)`: six zeros, edp, dp, pf, and ps or 0 by the type of `pf` (R63, R130). -/
def pgn (b : BitVec 29) : BitVec 24 :=
  0#6 ++ xEdp b ++ xDp b ++ xPf b ++
    (match pduType (xPf b) with
     | .type1 => 0#8
     | .type2 => xPs b)

/-- The parts of a PGN value (R64). -/
structure PgnParts where
  edp : BitVec 1
  dp : BitVec 1
  pf : BitVec 8
  ps : BitVec 8
deriving DecidableEq, Repr

/-- `PgnSplit(p)`: `p[17]`, `p[16]`, `p[15:8]`, `p[7:0]`; `p[23:18]` go to no field (R64). -/
def pgnSplit (p : BitVec 24) : PgnParts where
  edp := p.extractLsb' 17 1
  dp := p.extractLsb' 16 1
  pf := p.extractLsb' 8 8
  ps := p.extractLsb' 0 8

/-- `b` with edp, dp, pf and ps written from `p`'s parts, in the source's order (R102, R148). -/
def putPgnParts (b : BitVec 29) (p : BitVec 24) : BitVec 29 :=
  let q := pgnSplit p
  putXPs (putXPf (putXDp (putXEdp b q.edp) q.dp) q.pf) q.ps

/-! ### The whole identifier -/

/-- `FMT` of an identifier (R20). -/
def Ident.fmt : Ident → Format
  | .std _ => .std
  | .ext _ => .ext

/-- The register `ID[28:0]` that holds an identifier: zero-extended under STD (R22). -/
def Ident.bits : Ident → BitVec 29
  | .std s => s.setWidth 29
  | .ext b => b

/-- Priority, in either format (R121). -/
def Ident.prio : Ident → BitVec 3
  | .std s => sPrio s
  | .ext b => xPrio b

/-- Source address, in either format (R126). -/
def Ident.sa : Ident → BitVec 8
  | .std s => sSa s
  | .ext b => xSa b

/-- The identifier with priority `v`, in either format (R141). -/
def Ident.putPrio (v : BitVec 3) : Ident → Ident
  | .std s => .std (putSPrio s v)
  | .ext b => .ext (putXPrio b v)

/-- The identifier with source address `v`, in either format (R146). -/
def Ident.putSa (v : BitVec 8) : Ident → Ident
  | .std s => .std (putSSa s v)
  | .ext b => .ext (putXSa b v)

/-- The padded word of a Standard identifier: `5'd0 ++ ID[10:0]` (R47, R65). -/
def paddedStd (s : BitVec 11) : BitVec 16 := 0#5 ++ s

/-- The padded word of an Extended identifier: `3'd0 ++ ID[28:0]` (R47, R65). -/
def paddedExt (b : BitVec 29) : BitVec 32 := 0#3 ++ b

/-- The padded word at 32 bits, as TOHEX and DUMP carry it (R78, R79). -/
def Ident.padded : Ident → BitVec 32
  | .std s => (paddedStd s).setWidth 32
  | .ext b => paddedExt b

/-- The number of hex digits an identifier renders to (R65). -/
def Ident.hexLen : Ident → Nat
  | .std _ => Config.hexDigitsStd
  | .ext _ => Config.hexDigitsExt

/-- `ToHex(FMT, ID)` (R160). -/
def toHex : Ident → Text
  | .std s => hexText 4 (paddedStd s)
  | .ext b => hexText 8 (paddedExt b)

/-- `Eq(i, j)`: the hex texts are the same character string (R164). -/
def identEq (i j : Ident) : Bool := toHex i == toHex j

/-! ### The block's registers, read off the slot (R20, R22) -/

/-- `VALID` -/
def State.valid (s : State) : Bool := s.slot.isSome

/-- `FMT`; no value while `VALID = 0` (R34). -/
def State.fmt (s : State) : Option Format := s.slot.map Ident.fmt

/-- `ID`; no value while `VALID = 0` (R34). -/
def State.id (s : State) : Option (BitVec 29) := s.slot.map Ident.bits

/-! ### Ending a command -/

/-- The number of a status (R77). -/
def Status.code : Status → BitVec 3
  | .ok => 0#3
  | .outOfRange => 1#3
  | .wrongFormat => 2#3
  | .invalidPgn => 3#3
  | .malformedHex => 4#3
  | .noIdentifier => 5#3
  | .illegalCmd => 6#3

/-- The strap `policy`: 0 ROLLBACK, 1 PARTIAL (R18). -/
def policyLevel : PgnRejectPolicy → BitVec 1
  | .rollback => 0#1
  | .keepPartial => 1#1

/-- The policy that a level of the strap selects (R18). -/
def policyOfLevel (l : BitVec 1) : PgnRejectPolicy := if l = 0#1 then .rollback else .keepPartial

/-- The levels of `rsp_status`, `rsp_diag`, `rsp_len` and `rsp_data` that carry a response (R18, R76, R77). -/
def Response.ports (r : Response) : BitVec 3 × BitVec 1 × BitVec 6 × BitVec 96 :=
  (r.status.code, BitVec.ofBool r.diag, r.len, r.data)

/-- The response of a failing command: the status and zeros (R76, R186). -/
def Response.error (k : Status) : Response := ⟨k, false, 0#6, 0#96⟩

/-- A successful response with no payload (R78). -/
def Response.done (diag : Bool) : Response := ⟨.ok, diag, 0#6, 0#96⟩

/-- A successful response whose payload is an unsigned number, right-aligned in `data` (R76, R78). -/
def Response.number {w : Nat} (v : BitVec w) : Response := ⟨.ok, false, 0#6, v.setWidth 96⟩

/-- A successful response whose payload is a string of `len` characters carried by the number `v` (R78). -/
def Response.string {w : Nat} (len : Nat) (v : BitVec w) : Response := ⟨.ok, false, BitVec.ofNat 6 len, v.setWidth 96⟩

/-- `respond(...)`: the command ends and its response is given, after every earlier one (R12, R18). -/
def respond (r : Response) (s : State) : Host.Outcome State Fault Refusal :=
  .next { s with output := s.output ++ [r] }

/-- `raise <Kind>`: the block's exception. Only the response tells of it; nothing is saved, no mode changes, control
goes nowhere, and the state is what it was (R12, R192). There is nothing to return from (R193). -/
def raise (k : Status) (s : State) : Host.Outcome State Fault Refusal := respond (Response.error k) s

/-- The slot holds `i` from now on (a published constructor result or an in-place field write). -/
def State.hold (s : State) (i : Ident) : State := { s with slot := some i }

/-- A write that succeeded: the identifier is held and the response is `(OK, diag, no payload)` (R105, R152). -/
def publish (diag : Bool) (i : Ident) (s : State) : Host.Outcome State Fault Refusal :=
  respond (Response.done diag) (s.hold i)

/-! ### Preambles -/

/-- Preamble of a command that serves both formats: NoIdentifier while `VALID = 0` (R133, R140, R166, R184). -/
def withIdent (s : State) (k : Ident → Host.Outcome State Fault Refusal) : Host.Outcome State Fault Refusal :=
  match s.slot with
  | none => raise .noIdentifier s
  | some i => k i

/-- Preamble of an Extended-only command: NoIdentifier, then WrongFormat under STD (R133, R140, R181, R184). -/
def withExt (s : State) (k : BitVec 29 → Host.Outcome State Fault Refusal) : Host.Outcome State Fault Refusal :=
  match s.slot with
  | none => raise .noIdentifier s
  | some (.std _) => raise .wrongFormat s
  | some (.ext b) => k b

/-! ### The host's next event -/

/-- The host's next event and the state after taking it off the input (R27). -/
def State.takeEvent (s : State) : Option (HostEvent × State) :=
  match s.input with
  | [] => none
  | e :: rest => some (e, { s with input := rest })

/-- No event: nothing happens in the block between commands (R191; log entry 5). -/
def idle (s : State) : Host.Outcome State Fault Refusal := .next s

/-- `rst`: `VALID <- 0`; the identifier is gone. The strap stays and nothing is answered (R29, R210; log entry 6). -/
def takeReset (s : State) : Host.Outcome State Fault Refusal := .next { s with slot := none }

/-- An illegal word: IllegalCmd, tested before anything else, the state unchanged (R75, R185). -/
def takeIllegal (s : State) : Host.Outcome State Fault Refusal := raise .illegalCmd s

end Sys2Proof.Machine
end

