-- ==== Sys2Proof/Machine/Operands.lean ====
section
/-! DEFINITION. The operand forms that name an identifier: tokenised hex text (30_encoding.md R69, 40_construct.md R100),
a raw number with a format (R101), field values (R102, R103), and the immediate of EQ (43_serialize.md R165). Each
answers the identifier or the error kind. Also which commands are which (10_state.md R25). -/

namespace Sys2Proof.Machine

/-- `SelectFormat(ndig, val)`: Standard iff at most 4 digits and at most 0x7FF, both needed (R69). -/
def selectFormat (ndig val : Nat) : Format :=
  if ndig ≤ Config.hexStdMaxDigits ∧ val ≤ Config.maxStd then .std else .ext

/-- The identifier of format `fmt` that a number spells: its low 11 or 29 bits (R100, R101). -/
def identOfNumber (fmt : Format) (val : BitVec 32) : Ident :=
  match fmt with
  | .std => .std (val.extractLsb' 0 11)
  | .ext => .ext (val.extractLsb' 0 29)

/-- LDHEX's operand (R100): MalformedHex first, then OutOfRange, then the format selection of R69. -/
def hexOperand (ndig : BitVec 4) (val : BitVec 32) : Except Status Ident :=
  if ndig.toNat = 0 ∨ Config.hexMaxDigits < ndig.toNat then .error .malformedHex
  else if Config.maxExt < val.toNat then .error .outOfRange
  else .ok (identOfNumber (selectFormat ndig.toNat val.toNat) val)

/-- The largest raw value of a format (R7). -/
abbrev maxOf : Format → Nat
  | .std => Config.maxStd
  | .ext => Config.maxExt

/-- LDRAW's operand (R101): OutOfRange above the format's domain; the flag decides the format, not the value. -/
def rawOperand (fmt : Format) (val : BitVec 32) : Except Status Ident :=
  if maxOf fmt < val.toNat then .error .outOfRange else .ok (identOfNumber fmt val)

/-- NEWX's operands (R102): the scratch value is built in the source's order, with the PGN setter's check; under type 1
`da` replaces `ps`, under type 2 it is ignored. -/
def fieldsOperand (prio : BitVec 3) (p : BitVec 24) (sa da : BitVec 8) : Except Status Ident :=
  let b := putPgnParts (putXPrio 0#29 prio) p
  if pgn b ≠ p then .error .invalidPgn
  else
    let b := putXSa b sa
    match pduType (xPf b) with
    | .type1 => .ok (.ext (putXPs b da))
    | .type2 => .ok (.ext b)

/-- EQ's operand (R165): a Standard value above 0x7FF spells no identifier; an Extended one always does. -/
def immediateOperand (fmt : Format) (val : BitVec 29) : Except Status Ident :=
  match fmt with
  | .std => if Config.maxStd < val.toNat then .error .outOfRange else .ok (.std (val.extractLsb' 0 11))
  | .ext => .ok (.ext val)

/-- A constructor command's end: its identifier replaces the slot, or its error leaves the slot as it was (R104, R105). -/
def construct (r : Except Status Ident) (s : State) : Host.Outcome State Fault Refusal :=
  match r with
  | .ok i => publish false i s
  | .error k => raise k s

end Sys2Proof.Machine
end

