-- ==== Sys2Proof/Machine/Construct.lean ====
section
/-! DEFINITION. The constructor commands (40_construct.md). They do not read `VALID`. -/

namespace Sys2Proof.Machine

/-- LDHEX (R100). -/
def execLdhex (ndig : BitVec 4) (val : BitVec 32) (s : State) : Host.Outcome State Fault Refusal :=
  construct (hexOperand ndig val) s

/-- LDRAW (R101). -/
def execLdraw (fmt : Format) (val : BitVec 32) (s : State) : Host.Outcome State Fault Refusal :=
  construct (rawOperand fmt val) s

/-- NEWX (R102). No diagnostic, also when `da` is ignored. -/
def execNewx (prio : BitVec 3) (p : BitVec 24) (sa da : BitVec 8) (s : State) : Host.Outcome State Fault Refusal :=
  construct (fieldsOperand prio p sa da) s

/-- NEWS (R103): `ID[10:0] = prio ++ sa`; it cannot fail. -/
def execNews (prio : BitVec 3) (sa : BitVec 8) (s : State) : Host.Outcome State Fault Refusal :=
  construct (.ok (.std (prio ++ sa))) s

end Sys2Proof.Machine
end

