-- ==== Sys2Proof/Machine/FieldRead.lean ====
section
/-! DEFINITION. The field reads (41_field_read.md). None writes state or sets the diagnostic (R135). -/

namespace Sys2Proof.Machine

/-- GFMT (R120): 0 Standard, 1 Extended. -/
def execGfmt (s : State) : Host.Outcome State Fault Refusal :=
  withIdent s fun i => respond (Response.number i.fmt.bit) s

/-- GPRIO (R121). -/
def execGprio (s : State) : Host.Outcome State Fault Refusal :=
  withIdent s fun i => respond (Response.number i.prio) s

/-- GEDP (R122), Extended only. -/
def execGedp (s : State) : Host.Outcome State Fault Refusal :=
  withExt s fun b => respond (Response.number (xEdp b)) s

/-- GDP (R123), Extended only. -/
def execGdp (s : State) : Host.Outcome State Fault Refusal :=
  withExt s fun b => respond (Response.number (xDp b)) s

/-- GPF (R124), Extended only. -/
def execGpf (s : State) : Host.Outcome State Fault Refusal :=
  withExt s fun b => respond (Response.number (xPf b)) s

/-- GPS (R125), Extended only: the stored byte under both PDU types. -/
def execGps (s : State) : Host.Outcome State Fault Refusal :=
  withExt s fun b => respond (Response.number (xPs b)) s

/-- GSA (R126). -/
def execGsa (s : State) : Host.Outcome State Fault Refusal :=
  withIdent s fun i => respond (Response.number i.sa) s

/-- GTYPE (R127), Extended only. -/
def execGtype (s : State) : Host.Outcome State Fault Refusal :=
  withExt s fun b => respond (Response.number (pduType (xPf b)).code) s

/-- GDA (R131), Extended only. -/
def execGda (s : State) : Host.Outcome State Fault Refusal :=
  withExt s fun b => respond (Response.number (destAddr b)) s

/-- GPGN (R132), Extended only. -/
def execGpgn (s : State) : Host.Outcome State Fault Refusal :=
  withExt s fun b => respond (Response.number (pgn b)) s

end Sys2Proof.Machine
end

