-- ==== Sys2Proof/Machine/Flags.lean ====
section
/-! DEFINITION. The block stores no flag (10_state.md R28). Its one flag-like output is the advisory diagnostic bit of
a response (60_exceptions.md R190), computed here. -/

namespace Sys2Proof.Machine

/-- The diagnostic of a destination-address write: 1 iff the PDU type is 2, whether or not the byte changes (R147,
R190). The write does not change `pf`, so the type is the same before and after it. -/
def destWriteDiag (b : BitVec 29) : Bool := pduType (xPf b) == .type2

end Sys2Proof.Machine
end

