-- ==== Sys2Proof/Machine/FieldWrite.lean ====
section
/-! DEFINITION. The field writes (42_field_write.md): masked in-place writes that never change `FMT` or `VALID` (R152). -/

namespace Sys2Proof.Machine

/-- SPRIO (R141). -/
def execSprio (v : BitVec 3) (s : State) : Host.Outcome State Fault Refusal :=
  withIdent s fun i => publish false (i.putPrio v) s

/-- SEDP (R142), Extended only. -/
def execSedp (v : BitVec 1) (s : State) : Host.Outcome State Fault Refusal :=
  withExt s fun b => publish false (.ext (putXEdp b v)) s

/-- SDP (R143), Extended only. -/
def execSdp (v : BitVec 1) (s : State) : Host.Outcome State Fault Refusal :=
  withExt s fun b => publish false (.ext (putXDp b v)) s

/-- SPF (R144), Extended only: no diagnostic, also when the PDU type changes. -/
def execSpf (v : BitVec 8) (s : State) : Host.Outcome State Fault Refusal :=
  withExt s fun b => publish false (.ext (putXPf b v)) s

/-- SPS (R145), Extended only: never a diagnostic. -/
def execSps (v : BitVec 8) (s : State) : Host.Outcome State Fault Refusal :=
  withExt s fun b => publish false (.ext (putXPs b v)) s

/-- SSA (R146). -/
def execSsa (v : BitVec 8) (s : State) : Host.Outcome State Fault Refusal :=
  withIdent s fun i => publish false (i.putSa v) s

/-- SDA (R147), Extended only: writes `ps`; the diagnostic is 1 iff the PDU type is 2. -/
def execSda (v : BitVec 8) (s : State) : Host.Outcome State Fault Refusal :=
  withExt s fun b => publish (destWriteDiag b) (.ext (putXPs b v)) s

/-- What the block holds after a rejected PGN write of the fields `b` (R148): under ROLLBACK what it held before,
under PARTIAL the fields just written. -/
def afterRejectedPgn (b : BitVec 29) (s : State) : State :=
  match s.policy with
  | .rollback => s
  | .keepPartial => s.hold (.ext b)

/-- SPGN (R148), Extended only: write the four fields, recompute the PGN, and reject with InvalidPgn if it differs. -/
def execSpgn (v : BitVec 24) (s : State) : Host.Outcome State Fault Refusal :=
  withExt s fun old =>
    let b := putPgnParts old v
    if pgn b ≠ v then raise .invalidPgn (afterRejectedPgn b s) else publish false (.ext b) s

end Sys2Proof.Machine
end

