-- ==== Sys2Proof/Machine/Serialize.lean ====
section
/-! DEFINITION. Serialisation and comparison (43_serialize.md), and the reading of a response's abstract payload from
its packed form (30_encoding.md R76, R78, R79). None of the four commands writes state or sets the diagnostic (R166). -/

namespace Sys2Proof.Machine

/-- The 96-bit packing of DUMP (R79), most significant part first. -/
def dumpData : Ident → BitVec 96
  | .std s => 0#1 ++ 0#34 ++ sSa s ++ 0#18 ++ sPrio s ++ (Ident.std s).padded
  | .ext b =>
    1#1 ++ (pduType (xPf b)).code ++ pgn b ++ destAddr b ++ xSa b ++ xPs b ++ xPf b ++ xDp b ++ xEdp b ++ xPrio b ++
      (Ident.ext b).padded

/-- TOHEX (R161): `data` is the padded word, `len` the digit count. -/
def execTohex (s : State) : Host.Outcome State Fault Refusal :=
  withIdent s fun i => respond (Response.string i.hexLen i.padded) s

/-- The number of bits of the identifier: 11 or 29 (R162). -/
def Ident.width : Ident → Nat
  | .std _ => 11
  | .ext _ => 29

/-- TOBIN (R162): `data` is the identifier, `len` the bit count. -/
def execTobin (s : State) : Host.Outcome State Fault Refusal :=
  withIdent s fun i => respond (Response.string i.width i.bits) s

/-- DUMP (R163). -/
def execDump (s : State) : Host.Outcome State Fault Refusal :=
  withIdent s fun i => respond (Response.number (dumpData i)) s

/-- EQ (R165): NoIdentifier is tested first, then the operand; the answer is the comparison of the hex texts (R164). -/
def execEq (fmt : Format) (val : BitVec 29) (s : State) : Host.Outcome State Fault Refusal :=
  withIdent s fun i =>
    match immediateOperand fmt val with
    | .error k => raise k s
    | .ok j => respond (Response.number (BitVec.ofBool (identEq i j))) s

/-! ### The abstract payload -/

/-- The keys of the field map, in R163's order and spelling. -/
inductive DumpKey where
  | canId
  | priority
  | edp
  | dp
  | pf
  | ps
  | sa
  | da
  | pgn
  | pduType
  | format
deriving DecidableEq, Repr

/-- The key's spelling (R163, D15). -/
def DumpKey.name : DumpKey → String
  | .canId => "can_id"
  | .priority => "priority"
  | .edp => "edp"
  | .dp => "dp"
  | .pf => "pf"
  | .ps => "ps"
  | .sa => "sa"
  | .da => "da"
  | .pgn => "pgn"
  | .pduType => "pdu_type"
  | .format => "format"

/-- A value of the field map: the hex text, an unsigned number of the field's width, or the format tag (R163, D15). -/
inductive DumpValue where
  | text (t : Text)
  | number (width : Nat) (v : BitVec width)
  | format (f : Format)
deriving DecidableEq, Repr

/-- The field map of an identifier, in order (R163). -/
def dumpMap : Ident → List (DumpKey × DumpValue)
  | .ext b =>
    [(.canId, .text (toHex (.ext b))), (.priority, .number 3 (xPrio b)), (.edp, .number 1 (xEdp b)),
     (.dp, .number 1 (xDp b)), (.pf, .number 8 (xPf b)), (.ps, .number 8 (xPs b)), (.sa, .number 8 (xSa b)),
     (.da, .number 8 (destAddr b)), (.pgn, .number 24 (pgn b)), (.pduType, .number 2 (pduType (xPf b)).code),
     (.format, .format .ext)]
  | .std s =>
    [(.canId, .text (toHex (.std s))), (.priority, .number 3 (sPrio s)), (.sa, .number 8 (sSa s)),
     (.format, .format .std)]

/-- The field map read from DUMP's `data` by R79's positions: `data[95]` tells which keys are present. -/
def unpackDump (d : BitVec 96) : List (DumpKey × DumpValue) :=
  if d.getLsbD 95 then
    [(.canId, .text (hexText 8 (d.extractLsb' 0 32))), (.priority, .number 3 (d.extractLsb' 32 3)),
     (.edp, .number 1 (d.extractLsb' 35 1)), (.dp, .number 1 (d.extractLsb' 36 1)),
     (.pf, .number 8 (d.extractLsb' 37 8)), (.ps, .number 8 (d.extractLsb' 45 8)),
     (.sa, .number 8 (d.extractLsb' 53 8)), (.da, .number 8 (d.extractLsb' 61 8)),
     (.pgn, .number 24 (d.extractLsb' 69 24)), (.pduType, .number 2 (d.extractLsb' 93 2)), (.format, .format .ext)]
  else
    [(.canId, .text (hexText 4 (d.extractLsb' 0 16))), (.priority, .number 3 (d.extractLsb' 32 3)),
     (.sa, .number 8 (d.extractLsb' 53 8)), (.format, .format .std)]

/-- The payload of a response in the abstract sense of R76: nothing, an unsigned number, a string, or a field map. -/
inductive Payload where
  | none
  | number (width : Nat) (v : BitVec width)
  | text (t : Text)
  | fields (m : List (DumpKey × DumpValue))
deriving DecidableEq, Repr

/-- The first `w` bits of `data`, as a number (R78). -/
def Response.numberPayload (r : Response) (w : Nat) : Payload := .number w (r.data.extractLsb' 0 w)

/-- The payload a response to the command `i` carries (R78); a failing command has none (R76). -/
def Response.payload (i : Instr) (r : Response) : Payload :=
  if r.status ≠ .ok then .none else
  match i with
  | .ldhex _ _ => .none
  | .ldraw _ _ => .none
  | .newx _ _ _ _ => .none
  | .news _ _ => .none
  | .gprio => r.numberPayload 3
  | .gedp => r.numberPayload 1
  | .gdp => r.numberPayload 1
  | .gpf => r.numberPayload 8
  | .gps => r.numberPayload 8
  | .gsa => r.numberPayload 8
  | .gda => r.numberPayload 8
  | .gpgn => r.numberPayload 24
  | .sprio _ => .none
  | .sedp _ => .none
  | .sdp _ => .none
  | .spf _ => .none
  | .sps _ => .none
  | .ssa _ => .none
  | .sda _ => .none
  | .spgn _ => .none
  | .gtype => r.numberPayload 2
  | .gfmt => r.numberPayload 1
  | .tohex => .text (hexText r.len.toNat (r.data.extractLsb' 0 (4 * r.len.toNat)))
  | .tobin => .text (binText r.len.toNat (r.data.extractLsb' 0 r.len.toNat))
  | .dump => .fields (unpackDump r.data)
  | .eq _ _ => r.numberPayload 1

end Sys2Proof.Machine
end

