-- ==== Sys2Proof/Machine/Dispatch.lean ====
section
/-! DEFINITION. One arm per command of spec/opcode_table.json. -/

namespace Sys2Proof.Machine

def exec (i : Instr) (s : State) : Host.Outcome State Fault Refusal :=
  match i with
  | .ldhex ndig val => Sys2Proof.Machine.execLdhex ndig val s
  | .ldraw fmt val => Sys2Proof.Machine.execLdraw fmt val s
  | .newx prio p sa da => Sys2Proof.Machine.execNewx prio p sa da s
  | .news prio sa => Sys2Proof.Machine.execNews prio sa s
  | .gprio => Sys2Proof.Machine.execGprio s
  | .gedp => Sys2Proof.Machine.execGedp s
  | .gdp => Sys2Proof.Machine.execGdp s
  | .gpf => Sys2Proof.Machine.execGpf s
  | .gps => Sys2Proof.Machine.execGps s
  | .gsa => Sys2Proof.Machine.execGsa s
  | .gda => Sys2Proof.Machine.execGda s
  | .gpgn => Sys2Proof.Machine.execGpgn s
  | .sprio v => Sys2Proof.Machine.execSprio v s
  | .sedp v => Sys2Proof.Machine.execSedp v s
  | .sdp v => Sys2Proof.Machine.execSdp v s
  | .spf v => Sys2Proof.Machine.execSpf v s
  | .sps v => Sys2Proof.Machine.execSps v s
  | .ssa v => Sys2Proof.Machine.execSsa v s
  | .sda v => Sys2Proof.Machine.execSda v s
  | .spgn v => Sys2Proof.Machine.execSpgn v s
  | .gtype => Sys2Proof.Machine.execGtype s
  | .gfmt => Sys2Proof.Machine.execGfmt s
  | .tohex => Sys2Proof.Machine.execTohex s
  | .tobin => Sys2Proof.Machine.execTobin s
  | .dump => Sys2Proof.Machine.execDump s
  | .eq fmt val => Sys2Proof.Machine.execEq fmt val s

end Sys2Proof.Machine
end

