-- ==== Sys2Proof/Machine/Step.lean ====
section
/-! DEFINITION. One step of the block: the host's next event, wholly done (00_scope.md R9, 20_memory.md R49, R52). -/

namespace Sys2Proof.Machine

/-- A presented command word: decode it, then its meaning; an illegal word is answered IllegalCmd (R71, R75, R185). -/
def runCommand (w : Word) (s : State) : Host.Outcome State Fault Refusal :=
  match decode w with
  | .ok i => exec i s
  | .error _ => takeIllegal s

/-- One step. With no event presented the block does nothing (R191). -/
def step (s : State) : Host.Outcome State Fault Refusal :=
  match s.takeEvent with
  | none => idle s
  | some (.rst, t) => takeReset t
  | some (.command w, t) => runCommand w t

/-- The state in which the host presents next the command word whose first `nbits` bits are those of `w` (log entry 3). -/
def State.withFetchWord (s : State) (nbits w : Nat) : State :=
  { s with input := .command (tableWord nbits w) :: s.input }

end Sys2Proof.Machine
end

