-- ==== Sys2Proof/Machine/Assembler.lean ====
section
/-! DEFINITION. The assembler syntax of 30_encoding.md R80, the operand defaults of R81 and the pseudo-instruction RENDER
of R82: one line of text to the commands it stands for. It is outside the block: no step calls it. An operand that does
not fit its field is refused (00_scope.md R16). Spacing is log entry 9. -/

namespace Sys2Proof.Machine

/-- The text without spaces at either end. -/
def trimSpaces (t : Text) : Text := ((t.dropWhile (· == ' ')).reverse.dropWhile (· == ' ')).reverse

/-- The pieces of a text between the separators. -/
def splitAtChar (sep : Char) : Text → List Text
  | [] => [[]]
  | c :: cs =>
    match splitAtChar sep cs with
    | [] => [[c]]
    | h :: t => if c == sep then [] :: h :: t else (c :: h) :: t

/-- The comma-separated operands of a line; none where nothing follows the mnemonic. -/
def operandsOf (rest : Text) : List Text := if rest.isEmpty then [] else (splitAtChar ',' rest).map trimSpaces

/-- The character is a decimal digit. -/
def isDecimalDigit (c : Char) : Bool :=
  match digitVal c with
  | some d => decide (d < 10)
  | none => false

/-- A number of R80, decimal or `0x` hexadecimal. -/
def numberOf (t : Text) : Option Nat :=
  match t with
  | '0' :: 'x' :: u => if u.isEmpty || !u.all isHexDigit then none else some (digitsValue 16 u)
  | u => if u.isEmpty || !u.all isDecimalDigit then none else some (digitsValue 10 u)

/-- A number that fits `w` bits; a wider one cannot be encoded and is refused (R16, R80). -/
def operandNumber (w : Nat) (t : Text) : Option (BitVec w) :=
  match numberOf t with
  | some n => if n < 2 ^ w then some (BitVec.ofNat w n) else none
  | none => none

/-- `std` or `ext`. -/
def formatName (t : Text) : Option Format :=
  if t == "std".toList then some .std else if t == "ext".toList then some .ext else none

/-- The value of a `key=value` operand with that key. -/
def keyValue (key : Text) (t : Text) : Option Text :=
  if t.take key.length == key then some (t.drop key.length) else none

/-- A `key=` operand at its place, or its default where it is omitted (R81), and the operands left. -/
def keyedOperand (key : String) (w dflt : Nat) : List Text → Option (BitVec w × List Text)
  | [] => some (BitVec.ofNat w dflt, [])
  | a :: rest =>
    match keyValue key.toList a with
    | some v => (operandNumber w v).map fun n => (n, rest)
    | none => some (BitVec.ofNat w dflt, a :: rest)

/-- The text between the quotation marks of LDHEX's operand. -/
def quotedText : Text → Option Text
  | '"' :: u => if u.getLast? == some '"' then some u.dropLast else none
  | _ => none

/-- LDHEX of a text, with HexCmd (R73, R80). -/
def ldhexOfText (t : Text) : Instr := .ldhex (hexCmd t).1 (hexCmd t).2

/-- The one operand of a field write. -/
def oneOperand (w : Nat) (mk : BitVec w → Instr) : List Text → Option (List Instr)
  | [a] => (operandNumber w a).map fun v => [mk v]
  | _ => none

/-- `std|ext, <number>`. -/
def formatAndNumber (w : Nat) (mk : Format → BitVec w → List Instr) : List Text → Option (List Instr)
  | [f, a] =>
    match formatName f, operandNumber w a with
    | some fmt, some v => some (mk fmt v)
    | _, _ => none
  | _ => none

/-- `[prio=] [, pgn=] [, sa=] [, da=]` with the defaults 3, 0, 0, 0 (R80, R81). -/
def newxOperands (args : List Text) : Option (List Instr) :=
  match keyedOperand "prio=" 3 Config.defaultPriority args with
  | none => none
  | some (prio, args) =>
    match keyedOperand "pgn=" 24 Config.defaultOperand args with
    | none => none
    | some (p, args) =>
      match keyedOperand "sa=" 8 Config.defaultOperand args with
      | none => none
      | some (sa, args) =>
        match keyedOperand "da=" 8 Config.defaultOperand args with
        | some (da, []) => some [.newx prio p sa da]
        | _ => none

/-- `[prio=] [, sa=]` with the defaults 3, 0 (R80, R81). -/
def newsOperands (args : List Text) : Option (List Instr) :=
  match keyedOperand "prio=" 3 Config.defaultPriority args with
  | none => none
  | some (prio, args) =>
    match keyedOperand "sa=" 8 Config.defaultOperand args with
    | some (sa, []) => some [.news prio sa]
    | _ => none

/-- A command without operands (format Z, R72). -/
def noOperand (i : Instr) (args : List Text) : Option (List Instr) := if args.isEmpty then some [i] else none

/-- The source's function names, which R82 allows as spellings of the mnemonics of 00_scope.md R17; any other word is its
own spelling (log entry 9). -/
def spelledMnemonic : String → String
  | "from_hex" => "LDHEX"
  | "new_extended" => "NEWX"
  | "new_standard" => "NEWS"
  | "set_pgn" => "SPGN"
  | "to_hex" => "TOHEX"
  | "to_binary_string" => "TOBIN"
  | "as_map" => "DUMP"
  | m => m

/-- One line of assembler text (R80): the commands it stands for, or none where the assembler refuses it. RENDER stands
for LDRAW then TOHEX (R82). -/
def assemble (line : Text) : Option (List Instr) :=
  let l := trimSpaces line
  let rest := trimSpaces (l.dropWhile (· != ' '))
  let args := operandsOf rest
  match spelledMnemonic (String.ofList (l.takeWhile (· != ' '))) with
  | "LDHEX" => (quotedText rest).map fun t => [ldhexOfText t]
  | "LDRAW" => formatAndNumber 32 (fun f v => [.ldraw f v]) args
  | "NEWX" => newxOperands args
  | "NEWS" => newsOperands args
  | "GFMT" => noOperand .gfmt args
  | "GPRIO" => noOperand .gprio args
  | "GEDP" => noOperand .gedp args
  | "GDP" => noOperand .gdp args
  | "GPF" => noOperand .gpf args
  | "GPS" => noOperand .gps args
  | "GSA" => noOperand .gsa args
  | "GTYPE" => noOperand .gtype args
  | "GDA" => noOperand .gda args
  | "GPGN" => noOperand .gpgn args
  | "SPRIO" => oneOperand 3 .sprio args
  | "SEDP" => oneOperand 1 .sedp args
  | "SDP" => oneOperand 1 .sdp args
  | "SPF" => oneOperand 8 .spf args
  | "SPS" => oneOperand 8 .sps args
  | "SSA" => oneOperand 8 .ssa args
  | "SDA" => oneOperand 8 .sda args
  | "SPGN" => oneOperand 24 .spgn args
  | "TOHEX" => noOperand .tohex args
  | "TOBIN" => noOperand .tobin args
  | "DUMP" => noOperand .dump args
  | "EQ" => formatAndNumber 29 (fun f v => [.eq f v]) args
  | "RENDER" => formatAndNumber 32 (fun f v => [.ldraw f v, .tohex]) args
  | _ => none

/-- The command words of a line. -/
def assembleWords (line : String) : Option (List Word) := (assemble line.toList).map fun is => is.map encode

end Sys2Proof.Machine
end

