-- ==== Sys2Proof/Safety.lean ====
section
/-! DEFINITION. The terms claims use: which commands are which (10_state.md R25), which can end in which status
(60_exceptions.md R188), the form every response has (30_encoding.md R76, R78), and the invariant of a run. -/

namespace Sys2Proof.Safety

open Sys2Proof.Machine

/-- The four constructor commands (R24, R25). -/
def isConstructor : Instr → Bool
  | .ldhex _ _ => true
  | .ldraw _ _ => true
  | .newx _ _ _ _ => true
  | .news _ _ => true
  | _ => false

/-- The commands that write no state: the field reads (R135), and TOHEX, TOBIN, DUMP, EQ (R166). -/
def isRead : Instr → Bool
  | .gfmt => true
  | .gprio => true
  | .gedp => true
  | .gdp => true
  | .gpf => true
  | .gps => true
  | .gsa => true
  | .gtype => true
  | .gda => true
  | .gpgn => true
  | .tohex => true
  | .tobin => true
  | .dump => true
  | .eq _ _ => true
  | _ => false

/-- The Extended-only commands: seven reads (R133) and six writes (R140), the thirteen of R181. -/
def isExtendedOnly : Instr → Bool
  | .gedp => true
  | .gdp => true
  | .gpf => true
  | .gps => true
  | .gtype => true
  | .gda => true
  | .gpgn => true
  | .sedp _ => true
  | .sdp _ => true
  | .spf _ => true
  | .sps _ => true
  | .sda _ => true
  | .spgn _ => true
  | _ => false

/-- SPGN, the one command that can fail and leave something changed (R183). -/
def isSpgn : Instr → Bool
  | .spgn _ => true
  | _ => false

/-- The matrix of R188, with OK possible everywhere; IllegalCmd belongs to words that spell no command. -/
def mayEndIn (i : Instr) : Status → Bool
  | .ok => true
  | .outOfRange =>
    match i with
    | .ldhex _ _ => true
    | .ldraw _ _ => true
    | .eq _ _ => true
    | _ => false
  | .wrongFormat => isExtendedOnly i
  | .invalidPgn =>
    match i with
    | .newx _ _ _ _ => true
    | .spgn _ => true
    | _ => false
  | .malformedHex =>
    match i with
    | .ldhex _ _ => true
    | _ => false
  | .noIdentifier => !isConstructor i
  | .illegalCmd => false

/-- The state after a command that leaves `slot` in the block and answers `r`: the strap, the events still to come and
the earlier responses are what they were. Every claim about a command's result is an equation with such a state, which
says the command's whole effect and its frame. -/
def after (s : State) (slot : Option Ident) (r : Response) : State where
  slot := slot
  policy := s.policy
  input := s.input
  output := s.output ++ [r]

/-- The response of a failing command (R76): its status and zeros. -/
def errorIs (k : Status) : Response := ⟨k, false, 0#6, 0#96⟩

/-- `(OK, diag, no payload)` (R78). -/
def okDone (diag : Bool) : Response := ⟨.ok, diag, 0#6, 0#96⟩

/-- `(OK, 0, n)`: the number `n` right-aligned in `data` (R76, R78). -/
def okNumber (n : Nat) : Response := ⟨.ok, false, 0#6, BitVec.ofNat 96 n⟩

/-- `(OK, 0, string)`: `len` characters carried by the number `n` (R78). -/
def okString (len n : Nat) : Response := ⟨.ok, false, BitVec.ofNat 6 len, BitVec.ofNat 96 n⟩

/-- The number `n` with its `w` bits from bit `lo` up replaced by those of `v`, in plain arithmetic (R12, R62). -/
def replacedBits (n lo w v : Nat) : Nat := n / 2 ^ (lo + w) * 2 ^ (lo + w) + v * 2 ^ lo + n % 2 ^ lo

/-- The PGN values that SPGN and NEWX accept: the negation of R149's failure condition. -/
abbrev PgnAcceptable (p : Nat) : Prop := p < 2 ^ 18 ∧ (240 ≤ p / 2 ^ 8 % 2 ^ 8 ∨ p % 2 ^ 8 = 0)

/-- The order of R189. -/
def errorOrder : List Status := [.illegalCmd, .noIdentifier, .wrongFormat, .malformedHex, .outOfRange, .invalidPgn]

/-- When each error kind applies to a command on a slot: R184, R181, R187, R182 and R149, each read alone. IllegalCmd
applies to words that spell no command, so to no command. -/
def errorApplies (i : Instr) (slot : Option Ident) : Status → Bool
  | .ok => false
  | .illegalCmd => false
  | .noIdentifier => !isConstructor i && slot.isNone
  | .wrongFormat => isExtendedOnly i && (slot.map Ident.fmt == some .std)
  | .malformedHex =>
    match i with
    | .ldhex ndig _ => ndig.toNat == 0 || decide (8 < ndig.toNat)
    | _ => false
  | .outOfRange =>
    match i with
    | .ldhex _ val => decide (0x1FFFFFFF < val.toNat)
    | .ldraw .std val => decide (0x7FF < val.toNat)
    | .ldraw .ext val => decide (0x1FFFFFFF < val.toNat)
    | .eq .std val => decide (0x7FF < val.toNat)
    | _ => false
  | .invalidPgn =>
    match i with
    | .newx _ p _ _ => decide (¬ PgnAcceptable p.toNat)
    | .spgn v => decide (¬ PgnAcceptable v.toNat)
    | _ => false

/-- The form of every response of the block (R76, R78, R190): an error carries zeros; the diagnostic comes with no
payload; `len` is 0, 4, 8, 11 or 29; and `data` is zero above the width of the string that `len` announces. -/
abbrev ResponseShape (r : Response) : Prop :=
  (r.status ≠ .ok → r.diag = false ∧ r.len = 0#6 ∧ r.data = 0#96) ∧
  (r.diag = true → r.len = 0#6 ∧ r.data = 0#96) ∧
  (r.len = 0#6 ∨ r.len = 4#6 ∨ r.len = 8#6 ∨ r.len = 11#6 ∨ r.len = 29#6) ∧
  (r.len = 4#6 ∨ r.len = 11#6 → r.data.toNat ≤ Config.maxStd) ∧
  (r.len = 8#6 ∨ r.len = 29#6 → r.data.toNat ≤ Config.maxExt)

/-- The invariant: every response given so far has that form. -/
abbrev Inv (s : State) : Prop := ∀ r ∈ s.output, ResponseShape r

/-- A safe step: the block goes on. It never stops (R193, R223), so this is every step. -/
def Safe (o : Host.Outcome State Fault Refusal) : Prop := ∃ t, o = .next t

end Sys2Proof.Safety
end

