-- ==== Sys2Proof/Certificates/Slice0/Obligations.lean ====
section
/-! DEFINITION. The statements for the provers. `after s slot r` (Safety.lean) is the state that differs from `s` only in
the slot and in one more response, so an equation with it says a command's whole effect and its frame. Field positions
are written as arithmetic on the identifier's number, from 30_encoding.md R61 and R62, not with the model's own accessors.
-/

open Sys2Proof Sys2Proof.Machine Sys2Proof.Safety

/-! ### Words -/

/-- Command words of 95_test_vectors.md, each decoded to the command it stands for, and illegal words of T8 refused
(R74, R75). -/
def Obligations.SpecWordsDecodeToTheirCommands : Prop :=
  decodeTableWord 48 0x0803000007FF = some (.ldhex 3#4 0x7FF#32) ∧
  decodeTableWord 48 0x10011FFFFFFF = some (.ldraw .ext 0x1FFFFFFF#32) ∧
  decodeTableWord 48 0x1F03EF008055 = some (.newx 7#3 0x3EF00#24 0x80#8 0x55#8) ∧
  decodeTableWord 48 0x200000000321 = some (.news 3#3 0x21#8) ∧
  decodeTableWord 48 0x780000000000 = some .gpgn ∧
  decodeTableWord 48 0xB80000FCFEF1 = some (.spgn 0xFCFEF1#24) ∧
  decodeTableWord 48 0xE80038EEFF01 = some (.eq .ext 0x18EEFF01#29) ∧
  decodeTableWord 48 0xE80000000321 = some (.eq .std 0x321#29) ∧
  decodeTableWord 48 0x400000000001 = none ∧
  decodeTableWord 48 0x080300001000 = none ∧
  decodeTableWord 48 0xFFFFFFFFFFFF = none

/-- Decoding the word of a legal command gives the command back, with every operand (R72, R74). -/
def Obligations.DecodeOfEncodeIsTheCommand : Prop :=
  ∀ i : Instr, i.wf = true → decode (encode i) = .ok i

/-- A word that decodes is the word its command encodes to, and the command is legal: each command has one word. -/
def Obligations.EncodeOfDecodeIsTheWord : Prop :=
  ∀ (w : Word) (i : Instr), decode w = .ok i → encode i = w ∧ i.wf = true

/-- The decoder against opcode_table.json's masks: 26 rows, at most one matches a word, and a word decodes to a command
of the row's mnemonic iff it matches the row and is not an LDHEX operand that no text can have (R74, R75). -/
def Obligations.OpcodeRowsDecideEveryWord : Prop :=
  opcodeRows.length = 26 ∧
  ∀ w : Word,
    (∀ r₁ ∈ opcodeRows, ∀ r₂ ∈ opcodeRows, r₁.matchesWord w = true → r₂.matchesWord w = true → r₁ = r₂) ∧
    ∀ m : String, (∃ i, decode w = .ok i ∧ i.mnemonic = m) ↔
      ((∃ r ∈ opcodeRows, r.matchesWord w = true ∧ r.mnemonic = m) ∧
        ¬ (w.toNat / 2 ^ 43 = 0x01 ∧ 1 ≤ w.toNat / 2 ^ 32 % 2 ^ 4 ∧ w.toNat / 2 ^ 32 % 2 ^ 4 ≤ 7 ∧
            16 ^ (w.toNat / 2 ^ 32 % 2 ^ 4) ≤ w.toNat % 2 ^ 32))

/-! ### Steps -/

/-- When the host's next event is a command word that decodes, a step takes that event off the input and is the
command's `exec`; nothing else is added around it (R52, R71). -/
def Obligations.StepRunsTheDecodedCommand : Prop :=
  ∀ (s : State) (w : Word) (rest : List HostEvent) (i : Instr),
    s.input = .command w :: rest → decode w = .ok i → step s = exec i { s with input := rest }

/-- R185: an illegal word is answered IllegalCmd before anything else is tested, and the state is unchanged. -/
def Obligations.IllegalWordIsAnsweredIllegalCmd : Prop :=
  ∀ (s : State) (w : Word) (rest : List HostEvent),
    s.input = .command w :: rest → (∀ i, decode w ≠ .ok i) →
      step s = .next (after { s with input := rest } s.slot (errorIs .illegalCmd))

/-- R34, R210: `rst` leaves no identifier, so no format and no bits, and the strap as it was (R29). The reset state holds
no identifier either. -/
def Obligations.ResetLeavesNoIdentifier : Prop :=
  State.reset.valid = false ∧ State.reset.fmt = none ∧ State.reset.id = none ∧
  ∀ (s : State) (rest : List HostEvent), s.input = .rst :: rest →
    ∃ t, step s = .next t ∧ t.valid = false ∧ t.fmt = none ∧ t.id = none ∧ t.policy = s.policy ∧ t.input = rest

/-- Every presented command gets exactly one response, responses come in the order of the commands (R18), and a block never
stops: from any state, after the first `k` events one response per command word among them has been appended, and `k` may
be the whole input (R52, R193, R223). That `rst` adds no response is the model's choice (log entry 6), not R18's. -/
def Obligations.EveryPresentedCommandGetsOneResponse : Prop :=
  ∀ (s : State) (k : Nat), k ≤ s.input.length → ∃ t answers, Sys2Proof.core.run k s = .next t ∧
    t.input = s.input.drop k ∧ t.policy = s.policy ∧ t.output = s.output ++ answers ∧
    answers.length =
      ((s.input.take k).filter fun e => match e with | .command _ => true | .rst => false).length

/-- One step never stops; it takes one event; a command word adds one response and `rst` adds none; with no event
nothing happens (the idle step is the model's choice, log entry 5). -/
def Obligations.EveryStepGoesOn : Prop :=
  ∀ s : State, ∃ t, step s = .next t ∧ t.policy = s.policy ∧ t.input = s.input.tail ∧
    match s.input with
    | [] => t = s
    | .rst :: _ => t.output = s.output
    | .command _ :: _ => ∃ r, t.output = s.output ++ [r]

/-! ### Constructors -/

/-- R100 with R69: LDHEX by digit count and value, with its encoding, for every operand that a legal word carries
(R75 (c)). -/
def Obligations.LdhexConstructsFromHexText : Prop :=
  ∀ (ndig : BitVec 4) (val : BitVec 32) (s : State), (Instr.ldhex ndig val).wf = true →
    encode (.ldhex ndig val) = 0x01#5 ++ 0#7 ++ ndig ++ val ∧
    (ndig.toNat = 0 ∨ 8 < ndig.toNat →
      exec (.ldhex ndig val) s = .next (after s s.slot (errorIs .malformedHex))) ∧
    (1 ≤ ndig.toNat → ndig.toNat ≤ 8 → 0x1FFFFFFF < val.toNat →
      exec (.ldhex ndig val) s = .next (after s s.slot (errorIs .outOfRange))) ∧
    (1 ≤ ndig.toNat → ndig.toNat ≤ 4 → val.toNat ≤ 0x7FF →
      exec (.ldhex ndig val) s = .next (after s (some (.std (BitVec.ofNat 11 val.toNat))) (okDone false))) ∧
    (1 ≤ ndig.toNat → ndig.toNat ≤ 8 → val.toNat ≤ 0x1FFFFFFF → (4 < ndig.toNat ∨ 0x7FF < val.toNat) →
      exec (.ldhex ndig val) s = .next (after s (some (.ext (BitVec.ofNat 29 val.toNat))) (okDone false)))

/-- R101: LDRAW; the flag decides the format. -/
def Obligations.LdrawConstructsFromRawNumber : Prop :=
  ∀ (val : BitVec 32) (s : State),
    encode (.ldraw .std val) = 0x02#5 ++ 0#10 ++ 0#1 ++ val ∧ encode (.ldraw .ext val) = 0x02#5 ++ 0#10 ++ 1#1 ++ val ∧
    (0x7FF < val.toNat → exec (.ldraw .std val) s = .next (after s s.slot (errorIs .outOfRange))) ∧
    (val.toNat ≤ 0x7FF →
      exec (.ldraw .std val) s = .next (after s (some (.std (BitVec.ofNat 11 val.toNat))) (okDone false))) ∧
    (0x1FFFFFFF < val.toNat → exec (.ldraw .ext val) s = .next (after s s.slot (errorIs .outOfRange))) ∧
    (val.toNat ≤ 0x1FFFFFFF →
      exec (.ldraw .ext val) s = .next (after s (some (.ext (BitVec.ofNat 29 val.toNat))) (okDone false)))

/-- R102 with R149: NEWX builds all 29 bits from its operands, `da` replacing the low byte under PDU type 1 and ignored
under type 2, or fails with InvalidPgn. -/
def Obligations.NewxConstructsFromFields : Prop :=
  ∀ (prio : BitVec 3) (p : BitVec 24) (sa da : BitVec 8) (s : State),
    encode (.newx prio p sa da) = 0x03#5 ++ prio ++ p ++ sa ++ da ∧
    (PgnAcceptable p.toNat →
      exec (.newx prio p sa da) s = .next (after s
        (some (.ext (BitVec.ofNat 29 (prio.toNat * 2 ^ 26 + p.toNat / 2 ^ 8 * 2 ^ 16 +
          (if p.toNat / 2 ^ 8 % 2 ^ 8 < 240 then da.toNat else p.toNat % 2 ^ 8) * 2 ^ 8 + sa.toNat))))
        (okDone false))) ∧
    (¬ PgnAcceptable p.toNat → exec (.newx prio p sa da) s = .next (after s s.slot (errorIs .invalidPgn)))

/-- R103: NEWS never fails. -/
def Obligations.NewsConstructsFromFields : Prop :=
  ∀ (prio : BitVec 3) (sa : BitVec 8) (s : State),
    encode (.news prio sa) = 0x04#5 ++ 0#32 ++ prio ++ sa ∧
    exec (.news prio sa) s =
      .next (after s (some (.std (BitVec.ofNat 11 (prio.toNat * 2 ^ 8 + sa.toNat)))) (okDone false))

/-- R104, R105: a constructor's result is decided by its operands alone, whatever the state; it either replaces the slot
whole and answers OK without the diagnostic, or changes nothing and answers its error, under both policies. -/
def Obligations.ConstructorResultIgnoresTheOldState : Prop :=
  ∀ i : Instr, isConstructor i = true →
    (∃ j : Ident, ∀ s, exec i s = .next (after s (some j) (okDone false))) ∨
    (∃ k : Status, k ≠ .ok ∧ ∀ s, exec i s = .next (after s s.slot (errorIs k)))

/-! ### Field reads -/

/-- R120, R121, R126: GFMT, GPRIO and GSA serve both formats; NoIdentifier is their only error. -/
def Obligations.FormatPriorityAndSourceReads : Prop :=
  encode .gfmt = 0x19#5 ++ 0#43 ∧ encode .gprio = 0x08#5 ++ 0#43 ∧ encode .gsa = 0x0D#5 ++ 0#43 ∧
  ∀ s : State,
    (s.slot = none →
      exec .gfmt s = .next (after s none (errorIs .noIdentifier)) ∧
      exec .gprio s = .next (after s none (errorIs .noIdentifier)) ∧
      exec .gsa s = .next (after s none (errorIs .noIdentifier))) ∧
    (∀ x, s.slot = some (.std x) →
      exec .gfmt s = .next (after s (some (.std x)) (okNumber 0)) ∧
      exec .gprio s = .next (after s (some (.std x)) (okNumber (x.toNat / 2 ^ 8))) ∧
      exec .gsa s = .next (after s (some (.std x)) (okNumber (x.toNat % 2 ^ 8)))) ∧
    (∀ b, s.slot = some (.ext b) →
      exec .gfmt s = .next (after s (some (.ext b)) (okNumber 1)) ∧
      exec .gprio s = .next (after s (some (.ext b)) (okNumber (b.toNat / 2 ^ 26))) ∧
      exec .gsa s = .next (after s (some (.ext b)) (okNumber (b.toNat % 2 ^ 8))))

/-- R122, R123, R124, R125: GEDP, GDP, GPF and GPS are Extended only. -/
def Obligations.ExtendedFieldReads : Prop :=
  encode .gedp = 0x09#5 ++ 0#43 ∧ encode .gdp = 0x0A#5 ++ 0#43 ∧ encode .gpf = 0x0B#5 ++ 0#43 ∧
  encode .gps = 0x0C#5 ++ 0#43 ∧
  ∀ s : State,
    (s.slot = none →
      exec .gedp s = .next (after s none (errorIs .noIdentifier)) ∧
      exec .gdp s = .next (after s none (errorIs .noIdentifier)) ∧
      exec .gpf s = .next (after s none (errorIs .noIdentifier)) ∧
      exec .gps s = .next (after s none (errorIs .noIdentifier))) ∧
    (∀ x, s.slot = some (.std x) →
      exec .gedp s = .next (after s (some (.std x)) (errorIs .wrongFormat)) ∧
      exec .gdp s = .next (after s (some (.std x)) (errorIs .wrongFormat)) ∧
      exec .gpf s = .next (after s (some (.std x)) (errorIs .wrongFormat)) ∧
      exec .gps s = .next (after s (some (.std x)) (errorIs .wrongFormat))) ∧
    (∀ b, s.slot = some (.ext b) →
      exec .gedp s = .next (after s (some (.ext b)) (okNumber (b.toNat / 2 ^ 25 % 2))) ∧
      exec .gdp s = .next (after s (some (.ext b)) (okNumber (b.toNat / 2 ^ 24 % 2))) ∧
      exec .gpf s = .next (after s (some (.ext b)) (okNumber (b.toNat / 2 ^ 16 % 2 ^ 8))) ∧
      exec .gps s = .next (after s (some (.ext b)) (okNumber (b.toNat / 2 ^ 8 % 2 ^ 8))))

/-- R127, R128: GTYPE answers 1 iff `pf < 240`, `pf = 0` included, else 2. -/
def Obligations.PduTypeRead : Prop :=
  encode .gtype = 0x18#5 ++ 0#43 ∧
  ∀ s : State,
    (s.slot = none → exec .gtype s = .next (after s none (errorIs .noIdentifier))) ∧
    (∀ x, s.slot = some (.std x) → exec .gtype s = .next (after s (some (.std x)) (errorIs .wrongFormat))) ∧
    (∀ b, s.slot = some (.ext b) →
      exec .gtype s = .next (after s (some (.ext b)) (okNumber (if b.toNat / 2 ^ 16 % 2 ^ 8 < 240 then 1 else 2))))

/-- R129, R131: GDA answers `ps` under type 1 and 255 under type 2. -/
def Obligations.DestinationAddressRead : Prop :=
  encode .gda = 0x0E#5 ++ 0#43 ∧
  ∀ s : State,
    (s.slot = none → exec .gda s = .next (after s none (errorIs .noIdentifier))) ∧
    (∀ x, s.slot = some (.std x) → exec .gda s = .next (after s (some (.std x)) (errorIs .wrongFormat))) ∧
    (∀ b, s.slot = some (.ext b) →
      exec .gda s = .next (after s (some (.ext b))
        (okNumber (if b.toNat / 2 ^ 16 % 2 ^ 8 < 240 then b.toNat / 2 ^ 8 % 2 ^ 8 else 255))))

/-- R130, R132: GPGN answers the identifier's bits 25..8, the low byte 0 under type 1. -/
def Obligations.PgnRead : Prop :=
  encode .gpgn = 0x0F#5 ++ 0#43 ∧
  ∀ s : State,
    (s.slot = none → exec .gpgn s = .next (after s none (errorIs .noIdentifier))) ∧
    (∀ x, s.slot = some (.std x) → exec .gpgn s = .next (after s (some (.std x)) (errorIs .wrongFormat))) ∧
    (∀ b, s.slot = some (.ext b) →
      exec .gpgn s = .next (after s (some (.ext b))
        (okNumber (if b.toNat / 2 ^ 16 % 2 ^ 8 < 240 then b.toNat / 2 ^ 16 % 2 ^ 10 * 2 ^ 8
          else b.toNat / 2 ^ 8 % 2 ^ 18))))

/-- R135, R166: no read, rendering or comparison writes any state or sets the diagnostic. -/
def Obligations.ReadsWriteNothing : Prop :=
  ∀ (i : Instr) (s : State), isRead i = true → ∃ r, r.diag = false ∧ exec i s = .next (after s s.slot r)

/-! ### Field writes -/

/-- R141, R146: SPRIO and SSA serve both formats and replace only their field's bits. -/
def Obligations.PriorityAndSourceWrites : Prop :=
  ∀ (p : BitVec 3) (v : BitVec 8) (s : State),
    encode (.sprio p) = 0x10#5 ++ 0#40 ++ p ∧ encode (.ssa v) = 0x15#5 ++ 0#35 ++ v ∧
    (s.slot = none →
      exec (.sprio p) s = .next (after s none (errorIs .noIdentifier)) ∧
      exec (.ssa v) s = .next (after s none (errorIs .noIdentifier))) ∧
    (∀ x, s.slot = some (.std x) →
      exec (.sprio p) s =
        .next (after s (some (.std (BitVec.ofNat 11 (replacedBits x.toNat 8 3 p.toNat)))) (okDone false)) ∧
      exec (.ssa v) s =
        .next (after s (some (.std (BitVec.ofNat 11 (replacedBits x.toNat 0 8 v.toNat)))) (okDone false))) ∧
    (∀ b, s.slot = some (.ext b) →
      exec (.sprio p) s =
        .next (after s (some (.ext (BitVec.ofNat 29 (replacedBits b.toNat 26 3 p.toNat)))) (okDone false)) ∧
      exec (.ssa v) s =
        .next (after s (some (.ext (BitVec.ofNat 29 (replacedBits b.toNat 0 8 v.toNat)))) (okDone false)))

/-- R142, R143, R144, R145: SEDP, SDP, SPF and SPS are Extended only, replace only their field's bits and never set the
diagnostic. -/
def Obligations.ExtendedFieldWrites : Prop :=
  ∀ (e : BitVec 1) (v : BitVec 8) (s : State),
    encode (.sedp e) = 0x11#5 ++ 0#42 ++ e ∧ encode (.sdp e) = 0x12#5 ++ 0#42 ++ e ∧
    encode (.spf v) = 0x13#5 ++ 0#35 ++ v ∧ encode (.sps v) = 0x14#5 ++ 0#35 ++ v ∧
    (s.slot = none →
      exec (.sedp e) s = .next (after s none (errorIs .noIdentifier)) ∧
      exec (.sdp e) s = .next (after s none (errorIs .noIdentifier)) ∧
      exec (.spf v) s = .next (after s none (errorIs .noIdentifier)) ∧
      exec (.sps v) s = .next (after s none (errorIs .noIdentifier))) ∧
    (∀ x, s.slot = some (.std x) →
      exec (.sedp e) s = .next (after s (some (.std x)) (errorIs .wrongFormat)) ∧
      exec (.sdp e) s = .next (after s (some (.std x)) (errorIs .wrongFormat)) ∧
      exec (.spf v) s = .next (after s (some (.std x)) (errorIs .wrongFormat)) ∧
      exec (.sps v) s = .next (after s (some (.std x)) (errorIs .wrongFormat))) ∧
    (∀ b, s.slot = some (.ext b) →
      exec (.sedp e) s =
        .next (after s (some (.ext (BitVec.ofNat 29 (replacedBits b.toNat 25 1 e.toNat)))) (okDone false)) ∧
      exec (.sdp e) s =
        .next (after s (some (.ext (BitVec.ofNat 29 (replacedBits b.toNat 24 1 e.toNat)))) (okDone false)) ∧
      exec (.spf v) s =
        .next (after s (some (.ext (BitVec.ofNat 29 (replacedBits b.toNat 16 8 v.toNat)))) (okDone false)) ∧
      exec (.sps v) s =
        .next (after s (some (.ext (BitVec.ofNat 29 (replacedBits b.toNat 8 8 v.toNat)))) (okDone false)))

/-- R147: SDA writes `ps` under both PDU types; the diagnostic is 1 iff the type is 2. -/
def Obligations.DestinationAddressWrite : Prop :=
  ∀ (v : BitVec 8) (s : State),
    encode (.sda v) = 0x16#5 ++ 0#35 ++ v ∧
    (s.slot = none → exec (.sda v) s = .next (after s none (errorIs .noIdentifier))) ∧
    (∀ x, s.slot = some (.std x) → exec (.sda v) s = .next (after s (some (.std x)) (errorIs .wrongFormat))) ∧
    (∀ b, s.slot = some (.ext b) →
      exec (.sda v) s = .next (after s (some (.ext (BitVec.ofNat 29 (replacedBits b.toNat 8 8 v.toNat))))
        (okDone (decide (240 ≤ b.toNat / 2 ^ 16 % 2 ^ 8)))))

/-- R148 with R149: SPGN writes bits 25..8 when its operand is acceptable; otherwise it answers InvalidPgn and leaves the
identifier as it was under ROLLBACK and the low 18 bits of the operand written under PARTIAL. -/
def Obligations.PgnWrite : Prop :=
  ∀ (v : BitVec 24) (s : State),
    encode (.spgn v) = 0x17#5 ++ 0#19 ++ v ∧
    (s.slot = none → exec (.spgn v) s = .next (after s none (errorIs .noIdentifier))) ∧
    (∀ x, s.slot = some (.std x) → exec (.spgn v) s = .next (after s (some (.std x)) (errorIs .wrongFormat))) ∧
    (∀ b, s.slot = some (.ext b) →
      (PgnAcceptable v.toNat →
        exec (.spgn v) s = .next
          (after s (some (.ext (BitVec.ofNat 29 (replacedBits b.toNat 8 18 v.toNat)))) (okDone false))) ∧
      (¬ PgnAcceptable v.toNat → s.policy = .rollback →
        exec (.spgn v) s = .next (after s (some (.ext b)) (errorIs .invalidPgn))) ∧
      (¬ PgnAcceptable v.toNat → s.policy = .keepPartial →
        exec (.spgn v) s = .next
          (after s (some (.ext (BitVec.ofNat 29 (replacedBits b.toNat 8 18 (v.toNat % 2 ^ 18))))) (errorIs .invalidPgn))))

/-- R152 as a frame on the stored fields: a successful field write puts its operand into its field and leaves the other
fields, the format and the presence of the identifier as they were, in either format. -/
def Obligations.FieldWritesKeepTheOtherFields : Prop :=
  ∀ s : State,
  (∀ x, s.slot = some (.std x) →
    (∀ v, ∃ y, exec (.sprio v) s = .next (after s (some (.std y)) (okDone false)) ∧ sPrio y = v ∧ sSa y = sSa x) ∧
    (∀ v, ∃ y, exec (.ssa v) s = .next (after s (some (.std y)) (okDone false)) ∧ sPrio y = sPrio x ∧ sSa y = v)) ∧
  (∀ b, s.slot = some (.ext b) →
    (∀ v, ∃ c, exec (.sprio v) s = .next (after s (some (.ext c)) (okDone false)) ∧ xPrio c = v ∧ xEdp c = xEdp b ∧
      xDp c = xDp b ∧ xPf c = xPf b ∧ xPs c = xPs b ∧ xSa c = xSa b) ∧
    (∀ v, ∃ c, exec (.sedp v) s = .next (after s (some (.ext c)) (okDone false)) ∧ xPrio c = xPrio b ∧ xEdp c = v ∧
      xDp c = xDp b ∧ xPf c = xPf b ∧ xPs c = xPs b ∧ xSa c = xSa b) ∧
    (∀ v, ∃ c, exec (.sdp v) s = .next (after s (some (.ext c)) (okDone false)) ∧ xPrio c = xPrio b ∧ xEdp c = xEdp b ∧
      xDp c = v ∧ xPf c = xPf b ∧ xPs c = xPs b ∧ xSa c = xSa b) ∧
    (∀ v, ∃ c, exec (.spf v) s = .next (after s (some (.ext c)) (okDone false)) ∧ xPrio c = xPrio b ∧ xEdp c = xEdp b ∧
      xDp c = xDp b ∧ xPf c = v ∧ xPs c = xPs b ∧ xSa c = xSa b) ∧
    (∀ v, ∃ c, exec (.sps v) s = .next (after s (some (.ext c)) (okDone false)) ∧ xPrio c = xPrio b ∧ xEdp c = xEdp b ∧
      xDp c = xDp b ∧ xPf c = xPf b ∧ xPs c = v ∧ xSa c = xSa b) ∧
    (∀ v, ∃ c, exec (.ssa v) s = .next (after s (some (.ext c)) (okDone false)) ∧ xPrio c = xPrio b ∧ xEdp c = xEdp b ∧
      xDp c = xDp b ∧ xPf c = xPf b ∧ xPs c = xPs b ∧ xSa c = v) ∧
    (∀ v, ∃ c d, exec (.sda v) s = .next (after s (some (.ext c)) (okDone d)) ∧ xPrio c = xPrio b ∧ xEdp c = xEdp b ∧
      xDp c = xDp b ∧ xPf c = xPf b ∧ xPs c = v ∧ xSa c = xSa b) ∧
    (∀ v, PgnAcceptable v.toNat →
      ∃ c, exec (.spgn v) s = .next (after s (some (.ext c)) (okDone false)) ∧ xPrio c = xPrio b ∧
        xEdp c ++ xDp c ++ xPf c ++ xPs c = v.extractLsb' 0 18 ∧ xSa c = xSa b))

/-- R151: what each field write does to the three computed values. -/
def Obligations.ComputedValuesFollowTheWrites : Prop :=
  ∀ (b c : BitVec 29) (s : State) (d : Bool), s.slot = some (.ext b) →
    (∀ v, exec (.sprio v) s = .next (after s (some (.ext c)) (okDone d)) →
      pduType (xPf c) = pduType (xPf b) ∧ destAddr c = destAddr b ∧ pgn c = pgn b) ∧
    (∀ v, exec (.ssa v) s = .next (after s (some (.ext c)) (okDone d)) →
      pduType (xPf c) = pduType (xPf b) ∧ destAddr c = destAddr b ∧ pgn c = pgn b) ∧
    (∀ v, exec (.sedp v) s = .next (after s (some (.ext c)) (okDone d)) →
      pduType (xPf c) = pduType (xPf b) ∧ destAddr c = destAddr b ∧
      (pgn c).toNat = replacedBits (pgn b).toNat 17 1 v.toNat) ∧
    (∀ v, exec (.sdp v) s = .next (after s (some (.ext c)) (okDone d)) →
      pduType (xPf c) = pduType (xPf b) ∧ destAddr c = destAddr b ∧
      (pgn c).toNat = replacedBits (pgn b).toNat 16 1 v.toNat) ∧
    (∀ v, exec (.spf v) s = .next (after s (some (.ext c)) (okDone d)) →
      pduType (xPf c) = pduType v ∧ destAddr c = (if v.toNat < 240 then xPs b else 255#8) ∧
      (pgn c).toNat = (pgn b).toNat / 2 ^ 16 * 2 ^ 16 + v.toNat * 2 ^ 8 + (if v.toNat < 240 then 0 else (xPs b).toNat)) ∧
    (∀ v, exec (.sps v) s = .next (after s (some (.ext c)) (okDone d)) ∨
        exec (.sda v) s = .next (after s (some (.ext c)) (okDone d)) →
      pduType (xPf c) = pduType (xPf b) ∧
      destAddr c = (if (xPf b).toNat < 240 then v else 255#8) ∧
      (pgn c).toNat = (if (xPf b).toNat < 240 then (pgn b).toNat else replacedBits (pgn b).toNat 0 8 v.toNat)) ∧
    (∀ v, exec (.spgn v) s = .next (after s (some (.ext c)) (okDone d)) →
      pduType (xPf c) = pduType (v.extractLsb' 8 8) ∧
      destAddr c = (if v.toNat / 2 ^ 8 % 2 ^ 8 < 240 then 0#8 else 255#8) ∧ pgn c = v)

/-- R150: after a PGN write of an acceptable value, GPGN answers that value; every other value fails with InvalidPgn. -/
def Obligations.PgnWriteReadsBack : Prop :=
  ∀ (v : BitVec 24) (b : BitVec 29) (s : State), s.slot = some (.ext b) →
    (PgnAcceptable v.toNat →
      ∃ t, exec (.spgn v) s = .next t ∧ exec .gpgn t = .next (after t t.slot (okNumber v.toNat))) ∧
    (¬ PgnAcceptable v.toNat → ∃ slot, exec (.spgn v) s = .next (after s slot (errorIs .invalidPgn)))

/-- R149 for both commands: SPGN on an Extended identifier, and NEWX whatever the slot holds, answer InvalidPgn iff
`v[23:18]` is not 0 or the new `pf` is below 240 with a low byte other than 0, under both policies. -/
def Obligations.PgnIsRejectedExactlyWhenItCannotRoundTrip : Prop :=
  ∀ (v : BitVec 24) (s : State),
    (∀ b, s.slot = some (.ext b) →
      ((∃ slot, exec (.spgn v) s = .next (after s slot (errorIs .invalidPgn))) ↔
        (v.toNat / 2 ^ 18 ≠ 0 ∨ (v.toNat / 2 ^ 8 % 2 ^ 8 < 240 ∧ v.toNat % 2 ^ 8 ≠ 0)))) ∧
    (∀ prio sa da,
      ((∃ slot, exec (.newx prio v sa da) s = .next (after s slot (errorIs .invalidPgn))) ↔
        (v.toNat / 2 ^ 18 ≠ 0 ∨ (v.toNat / 2 ^ 8 % 2 ^ 8 < 240 ∧ v.toNat % 2 ^ 8 ≠ 0))))

/-- R214: SPGN of an acceptable type-1 PGN and then SDA gives the identifier of that PGN and destination, GDA between the
two answering 0; in the reverse order the destination is lost and GDA answers 0 at the end. -/
def Obligations.PgnThenDestinationIsTheSafeOrder : Prop :=
  ∀ (v : BitVec 24) (d : BitVec 8) (b : BitVec 29) (s : State), s.slot = some (.ext b) → PgnAcceptable v.toNat →
    v.toNat / 2 ^ 8 % 2 ^ 8 < 240 →
    (∃ t u c, exec (.spgn v) s = .next t ∧ exec .gda t = .next (after t t.slot (okNumber 0)) ∧
      exec (.sda d) t = .next u ∧ u.slot = some (.ext c) ∧ pgn c = v ∧ destAddr c = d ∧
      xPrio c = xPrio b ∧ xSa c = xSa b) ∧
    (∃ t u, exec (.sda d) s = .next t ∧ exec (.spgn v) t = .next u ∧
      exec .gda u = .next (after u u.slot (okNumber 0)))

/-- R215: under PDU type 2, SDA changes the PGN's low byte, tells so only by the diagnostic, and GDA still answers 255. -/
def Obligations.DestinationWriteUnderType2ChangesThePgn : Prop :=
  ∀ (v : BitVec 8) (b : BitVec 29) (s : State), s.slot = some (.ext b) → 240 ≤ b.toNat / 2 ^ 16 % 2 ^ 8 →
    ∃ c, exec (.sda v) s = .next (after s (some (.ext c)) (okDone true)) ∧
      (pgn c).toNat = (pgn b).toNat / 2 ^ 8 * 2 ^ 8 + v.toNat ∧
      ∀ t, t.slot = some (.ext c) → exec .gda t = .next (after t t.slot (okNumber 255))

/-! ### Serialisation and comparison -/

/-- R160, R161: TOHEX carries the padded word and the digit count; as text it has 4 or 8 uppercase digits, most
significant first. -/
def Obligations.TohexRendersThePaddedWord : Prop :=
  encode .tohex = 0x1A#5 ++ 0#43 ∧
  ∀ s : State,
    (s.slot = none → exec .tohex s = .next (after s none (errorIs .noIdentifier))) ∧
    (∀ x, s.slot = some (.std x) → exec .tohex s = .next (after s (some (.std x)) (okString 4 x.toNat)) ∧
      ∃ t : Text, (okString 4 x.toNat).payload .tohex = .text t ∧ t = toHex (.std x) ∧ t.length = 4 ∧
        ∀ k, k < 4 → t[k]? = some ("0123456789ABCDEF".toList.getD (x.toNat / 16 ^ (3 - k) % 16) '0')) ∧
    (∀ b, s.slot = some (.ext b) → exec .tohex s = .next (after s (some (.ext b)) (okString 8 b.toNat)) ∧
      ∃ t : Text, (okString 8 b.toNat).payload .tohex = .text t ∧ t = toHex (.ext b) ∧ t.length = 8 ∧
        ∀ k, k < 8 → t[k]? = some ("0123456789ABCDEF".toList.getD (b.toNat / 16 ^ (7 - k) % 16) '0'))

/-- R162: TOBIN carries the identifier and its bit count; as text it has 11 or 29 characters, most significant bit first. -/
def Obligations.TobinRendersTheRawBits : Prop :=
  encode .tobin = 0x1B#5 ++ 0#43 ∧
  ∀ s : State,
    (s.slot = none → exec .tobin s = .next (after s none (errorIs .noIdentifier))) ∧
    (∀ x, s.slot = some (.std x) → exec .tobin s = .next (after s (some (.std x)) (okString 11 x.toNat)) ∧
      ∃ t : Text, (okString 11 x.toNat).payload .tobin = .text t ∧ t.length = 11 ∧
        ∀ k, k < 11 → t[k]? = some (if x.toNat / 2 ^ (10 - k) % 2 = 1 then '1' else '0')) ∧
    (∀ b, s.slot = some (.ext b) → exec .tobin s = .next (after s (some (.ext b)) (okString 29 b.toNat)) ∧
      ∃ t : Text, (okString 29 b.toNat).payload .tobin = .text t ∧ t.length = 29 ∧
        ∀ k, k < 29 → t[k]? = some (if b.toNat / 2 ^ (28 - k) % 2 = 1 then '1' else '0'))

/-- R79, R163: the 96 bits of DUMP, part by part, and the field map they carry in R163's order. A Standard identifier
raises no WrongFormat: its map has four keys. -/
def Obligations.DumpPacksTheFieldMap : Prop :=
  encode .dump = 0x1C#5 ++ 0#43 ∧
  ∀ s : State,
    (s.slot = none → exec .dump s = .next (after s none (errorIs .noIdentifier))) ∧
    (∀ x, s.slot = some (.std x) → ∃ r,
      r = okNumber (x.toNat + x.toNat / 2 ^ 8 * 2 ^ 32 + x.toNat % 2 ^ 8 * 2 ^ 53) ∧
      exec .dump s = .next (after s (some (.std x)) r) ∧
      r.payload .dump = .fields
        [(.canId, .text (toHex (.std x))), (.priority, .number 3 (sPrio x)), (.sa, .number 8 (sSa x)),
         (.format, .format .std)]) ∧
    (∀ b, s.slot = some (.ext b) → ∃ r,
      r = okNumber (b.toNat + (xPrio b).toNat * 2 ^ 32 + (xEdp b).toNat * 2 ^ 35 + (xDp b).toNat * 2 ^ 36 +
        (xPf b).toNat * 2 ^ 37 + (xPs b).toNat * 2 ^ 45 + (xSa b).toNat * 2 ^ 53 + (destAddr b).toNat * 2 ^ 61 +
        (pgn b).toNat * 2 ^ 69 + (if (xPf b).toNat < 240 then 1 else 2) * 2 ^ 93 + 2 ^ 95) ∧
      exec .dump s = .next (after s (some (.ext b)) r) ∧
      r.payload .dump = .fields
        [(.canId, .text (toHex (.ext b))), (.priority, .number 3 (xPrio b)), (.edp, .number 1 (xEdp b)),
         (.dp, .number 1 (xDp b)), (.pf, .number 8 (xPf b)), (.ps, .number 8 (xPs b)), (.sa, .number 8 (xSa b)),
         (.da, .number 8 (destAddr b)), (.pgn, .number 24 (pgn b)),
         (.pduType, .number 2 (if (xPf b).toNat < 240 then 1#2 else 2#2)), (.format, .format .ext)])

/-- R165 with R164: EQ answers 1 iff the two identifiers' hex texts are the same string; NoIdentifier is tested first,
then the range of a Standard operand. -/
def Obligations.EqComparesTheHexTexts : Prop :=
  ∀ (val : BitVec 29) (s : State),
    encode (.eq .std val) = 0x1D#5 ++ 0#13 ++ 0#1 ++ val ∧ encode (.eq .ext val) = 0x1D#5 ++ 0#13 ++ 1#1 ++ val ∧
    (s.slot = none →
      exec (.eq .std val) s = .next (after s none (errorIs .noIdentifier)) ∧
      exec (.eq .ext val) s = .next (after s none (errorIs .noIdentifier))) ∧
    (∀ i, s.slot = some i →
      (0x7FF < val.toNat → exec (.eq .std val) s = .next (after s (some i) (errorIs .outOfRange))) ∧
      (val.toNat ≤ 0x7FF → exec (.eq .std val) s = .next (after s (some i)
        (okNumber (if toHex i = toHex (.std (BitVec.ofNat 11 val.toNat)) then 1 else 0)))) ∧
      exec (.eq .ext val) s = .next (after s (some i) (okNumber (if toHex i = toHex (.ext val) then 1 else 0))))

/-- R167: two identifiers have the same hex text iff they have the same format and the same bits. -/
def Obligations.SameHexTextMeansSameIdentifier : Prop :=
  ∀ i j : Ident, identEq i j = true ↔ i.fmt = j.fmt ∧ i.bits = j.bits

/-- R219: LDHEX of the text that TOHEX renders gives the same format and bits again, from any state. -/
def Obligations.LdhexOfTohexReproducesTheIdentifier : Prop :=
  ∀ (i : Ident) (s : State), exec (ldhexOfText (toHex i)) s = .next (after s (some i) (okDone false))

/-- R106: TOHEX after LDHEX renders the padded uppercase form at the width of the selected format. -/
def Obligations.TohexAfterLdhexRendersThePaddedText : Prop :=
  ∀ (t : Text) (n v : Nat) (s : State), hexParse t = some (n, v) → v ≤ 0x1FFFFFFF →
    ∃ u r, exec (ldhexOfText t) s = .next u ∧ exec .tohex u = .next (after u u.slot r) ∧
      r.payload .tohex = .text (if n ≤ 4 ∧ v ≤ 0x7FF then hexText 4 (BitVec.ofNat 16 v) else hexText 8 (BitVec.ofNat 32 v))

/-- R67, R73: LDHEX of the tokenised text answers MalformedHex exactly when the text is empty after the `0x` is removed,
has a character that is no hex digit, or has more than 8 digits; the tokenised operand is always a legal one. -/
def Obligations.LdhexOfTextIsMalformedExactlyWhenTheTextIs : Prop :=
  ∀ (t : Text) (s : State),
    (ldhexOfText t).wf = true ∧
    (exec (ldhexOfText t) s = .next (after s s.slot (errorIs .malformedHex)) ↔
      (stripHexMark t = [] ∨ (∃ c ∈ stripHexMark t, digitVal c = none) ∨ 8 < (stripHexMark t).length))

/-! ### Errors -/

/-- R184: with no identifier held, each of the 22 other commands answers NoIdentifier and changes nothing. -/
def Obligations.NoIdentifierBeforeConstruction : Prop :=
  ∀ (i : Instr) (s : State), isConstructor i = false → s.slot = none →
    exec i s = .next (after s none (errorIs .noIdentifier))

/-- R181: an Extended-only command on a Standard identifier answers WrongFormat and changes nothing, under either policy;
no command answers WrongFormat otherwise. -/
def Obligations.WrongFormatExactlyOnStandard : Prop :=
  ∀ (i : Instr) (s : State),
    ((isExtendedOnly i = true ∧ ∃ x, s.slot = some (.std x)) →
      exec i s = .next (after s s.slot (errorIs .wrongFormat))) ∧
    (∀ slot r, exec i s = .next (after s slot r) → r.status = .wrongFormat →
      isExtendedOnly i = true ∧ ∃ x, s.slot = some (.std x))

/-- R189 with R181 to R187: a word that spells no command is answered IllegalCmd; the status of a command that a legal word
spells is the first error, in R189's order, that applies to it, or OK. -/
def Obligations.StatusIsTheFirstErrorThatApplies : Prop :=
  (∀ (w : Word) (s : State), (∀ i, decode w ≠ .ok i) →
    ∃ r, runCommand w s = .next (after s s.slot r) ∧ r.status = .illegalCmd) ∧
  ∀ (i : Instr) (s : State), i.wf = true → ∃ slot r, exec i s = .next (after s slot r) ∧
    r.status = ((errorOrder.find? (errorApplies i s.slot)).getD .ok)

/-- R188, both ways: a command ends only in a status its row allows, and each status its row allows is reached by that
command, on some state, with some operands that a legal word carries. -/
def Obligations.CommandByStatusMatrix : Prop :=
  (∀ (i : Instr) (s : State), ∃ slot r, exec i s = .next (after s slot r) ∧ mayEndIn i r.status = true) ∧
  (∀ (i : Instr) (k : Status), mayEndIn i k = true →
    ∃ (j : Instr) (s : State) (slot : Option Ident) (r : Response),
      j.wf = true ∧ j.mnemonic = i.mnemonic ∧ exec j s = .next (after s slot r) ∧ r.status = k)

/-- R183, R192: a failing command leaves the identifier as it was, with one exception: SPGN with InvalidPgn under
PARTIAL. -/
def Obligations.OnlyARejectedPgnWriteCanChangeTheSlot : Prop :=
  ∀ (i : Instr) (s : State) (slot : Option Ident) (r : Response),
    exec i s = .next (after s slot r) → r.status ≠ .ok → slot ≠ s.slot →
      isSpgn i = true ∧ r.status = .invalidPgn ∧ s.policy = .keepPartial

/-- R213: what a host finds after a rejected PGN write under PARTIAL: the four fields of the rejected value, priority and
sa as before, and a PGN that is not the rejected value. -/
def Obligations.RejectedPgnWriteUnderPartial : Prop :=
  ∀ (v : BitVec 24) (b : BitVec 29) (s : State), s.slot = some (.ext b) → s.policy = .keepPartial →
    ¬ PgnAcceptable v.toNat →
    ∃ c, exec (.spgn v) s = .next (after s (some (.ext c)) (errorIs .invalidPgn)) ∧
      xPrio c = xPrio b ∧ xSa c = xSa b ∧ pgn c ≠ v ∧ xEdp c = v.extractLsb' 17 1 ∧ xDp c = v.extractLsb' 16 1 ∧
      xPf c = v.extractLsb' 8 8 ∧ xPs c = v.extractLsb' 0 8

/-- R190: of all responses to all command words, the diagnostic is 1 in exactly one situation, a destination-address write
under PDU type 2, and that write succeeded. -/
def Obligations.DiagnosticExactlyForType2DestinationWrite : Prop :=
  ∀ (w : Word) (s : State), ∃ slot r, runCommand w s = .next (after s slot r) ∧ (r.diag = true → r.status = .ok) ∧
    (r.diag = true ↔
      (∃ v, decode w = .ok (.sda v)) ∧ ∃ b, s.slot = some (.ext b) ∧ 240 ≤ b.toNat / 2 ^ 16 % 2 ^ 8)

/-! ### Whole machine -/

/-- R24, R33: in any step that changes `VALID` or `FMT`, the event was `rst` or a constructor command that answered OK. -/
def Obligations.OnlyConstructorsAndResetWriteTheFormat : Prop :=
  ∀ s t : State, step s = .next t → t.fmt ≠ s.fmt →
    ∃ e rest, s.input = e :: rest ∧
      (e = .rst ∨ ∃ w i, e = .command w ∧ decode w = .ok i ∧ isConstructor i = true ∧
        t.output = s.output ++ [okDone false])

/-- R50, R193: any command given twice in a row answers the same response both times and leaves after the second what
the first left, under both policies; and a read leaves what was there. -/
def Obligations.RepeatingACommandChangesNothingMore : Prop :=
  ∀ (i : Instr) (s : State), ∃ slot r t,
    t = after s slot r ∧ exec i s = .next t ∧ exec i t = .next (after t slot r) ∧ (isRead i = true → slot = s.slot)

/-- R28, R186, R193: the effect of a command depends on the identifier and the policy alone; earlier responses, errors
among them, and later commands do not matter. -/
def Obligations.NothingIsLatched : Prop :=
  ∀ (i : Instr) (s₁ s₂ : State), s₁.slot = s₂.slot → s₁.policy = s₂.policy →
    ∃ slot r, exec i s₁ = .next (after s₁ slot r) ∧ exec i s₂ = .next (after s₂ slot r)

/-- The invariant at reset. -/
def Obligations.InvariantHoldsAtReset : Prop := Inv State.reset

/-- R76, R78, R190: every step keeps the form of the responses: errors carry zeros, the diagnostic comes with no payload,
`len` announces nothing but 4, 8, 11 or 29 characters, and `data` holds no more than the announced identifier. -/
def Obligations.EveryStepKeepsTheResponseForm : Prop :=
  ∀ s t : State, Inv s → step s = .next t → Inv t

/-- R22, R23 (b): the register `ID` of a Standard identifier is at most 0x7FF, of any identifier at most 0x1FFFFFFF, and
there is an `ID` and an `FMT` iff `VALID` is 1. -/
def Obligations.RegisterFitsTheFormat : Prop :=
  ∀ s : State, (s.valid = true ↔ s.fmt ≠ none) ∧ (s.valid = true ↔ s.id ≠ none) ∧
    ∀ n, s.id = some n → n.toNat ≤ 0x1FFFFFFF ∧ (s.fmt = some .std → n.toNat ≤ 0x7FF)

/-- R134 (a) to (g): the laws of the pure functions. -/
def Obligations.LawsOfTheDerivedValues : Prop :=
  ∀ b : BitVec 29,
    b = xPrio b ++ xEdp b ++ xDp b ++ xPf b ++ xPs b ++ xSa b ∧
    (∀ pf : BitVec 8, pduType pf = .type1 ↔ pf.toNat ≤ 239) ∧
    (pduType (xPf b) = .type2 → destAddr b = 255#8) ∧
    (pgn b).toNat ≤ 0x03FFFF ∧
    (pduType (xPf b) = .type1 → (pgn b).toNat % 2 ^ 8 = 0) ∧
    pgnSplit (pgn b) =
      ⟨xEdp b, xDp b, xPf b, if pduType (xPf b) = .type2 then xPs b else 0#8⟩ ∧
    pduType ((pgn b).extractLsb' 8 8) = pduType (xPf b)

/-! ### Assembler -/

/-- R81, R82: omitted operands assemble to 3, 0, 0, 0, and RENDER stands for LDRAW then TOHEX. -/
def Obligations.DefaultsAndRenderAssemble : Prop :=
  assembleWords "NEWX" = some [0x1B0000000000#48] ∧ assembleWords "NEWS" = some [0x200000000300#48] ∧
  assembleWords "NEWX prio=6, pgn=0xFEF1" = some [0x1E00FEF10000#48] ∧
  assembleWords "NEWX sa=1, da=2" = some [0x1B0000000102#48] ∧
  assembleWords "RENDER ext, 0x123" = some [0x100100000123#48, 0xD00000000000#48] ∧
  assembleWords "SPRIO 8" = none ∧ assembleWords "SEDP 2" = none ∧ assembleWords "SPF 256" = none

/-- R16, R80: what the assembler accepts are legal commands, so a line's words are never answered IllegalCmd. -/
def Obligations.AssembledCommandsAreLegal : Prop :=
  ∀ (line : Text) (is : List Instr), assemble line = some is → ∀ i ∈ is, i.wf = true

/-! ### Hex text and port levels -/

/-- R67, R73: which text is which operand. `digit` is defined on exactly the 22 digit characters, both cases, with the
values 0 to 15; one leading `0x` is removed; an accepted text gives the number of its digits, leading zeros counted, and
the sum of the digits by place; a longer string of digits gives its length, at most 15, and 0; any other text 0 and 0. -/
def Obligations.HexTextIsTokenisedByItsDigits : Prop :=
  (∀ (c : Char) (d : Nat), digitVal c = some d ↔
    "0123456789abcdef".toList[d]? = some c ∨ "0123456789ABCDEF".toList[d]? = some c) ∧
  ∀ t u : Text, u = (if t[0]? = some '0' ∧ t[1]? = some 'x' then t.drop 2 else t) →
    (u ≠ [] → (∀ c ∈ u, digitVal c ≠ none) → u.length ≤ 8 →
      hexParse t = some (u.length, (u.zipIdx.map fun p => (digitVal p.1).getD 0 * 16 ^ (u.length - 1 - p.2)).sum) ∧
      ∃ ndig val, ldhexOfText t = .ldhex ndig val ∧ ndig.toNat = u.length ∧
        val.toNat = (u.zipIdx.map fun p => (digitVal p.1).getD 0 * 16 ^ (u.length - 1 - p.2)).sum) ∧
    ((∀ c ∈ u, digitVal c ≠ none) → 8 < u.length →
      hexParse t = none ∧ ldhexOfText t = .ldhex (BitVec.ofNat 4 (min u.length 15)) 0#32) ∧
    (u = [] ∨ (∃ c ∈ u, digitVal c = none) → hexParse t = none ∧ ldhexOfText t = .ldhex 0#4 0#32)

/-- R18, R77: the numbers the ports carry. The strap is 0 for ROLLBACK and 1 for PARTIAL, and a rejected PGN write keeps
the written fields exactly under level 1; the statuses have R77's codes, and the code 7 is never produced. -/
def Obligations.PortsCarryTheirCodes : Prop :=
  policyLevel .rollback = 0#1 ∧ policyLevel .keepPartial = 1#1 ∧ (∀ l, policyLevel (policyOfLevel l) = l) ∧
  (∀ (v : BitVec 24) (b : BitVec 29) (s : State), s.slot = some (.ext b) → ¬ PgnAcceptable v.toNat →
    exec (.spgn v) s = .next (after s
      (some (.ext (if policyLevel s.policy = 1#1 then BitVec.ofNat 29 (replacedBits b.toNat 8 18 (v.toNat % 2 ^ 18))
        else b)))
      (errorIs .invalidPgn))) ∧
  (∀ r : Response, r.ports =
    (match r.status with
      | .ok => 0#3
      | .outOfRange => 1#3
      | .wrongFormat => 2#3
      | .invalidPgn => 3#3
      | .malformedHex => 4#3
      | .noIdentifier => 5#3
      | .illegalCmd => 6#3, if r.diag then 1#1 else 0#1, r.len, r.data)) ∧
  ∀ r : Response, r.ports.1 ≠ 7#3
end

