-- ==== Sys2Proof/Laws/Bits.lean ====
section
/-! SUPPORT. Bit vectors as numbers: a concatenation is a weighted sum and a bit range a quotient and a remainder, so that
linear arithmetic closes goals about layouts; and what a masked read finds after a masked write. -/

namespace Sys2Proof.Laws

/-- `a ++ b` as a number: the more significant part has the weight `2^width` (00_scope.md R11). -/
theorem append_toNat {v w : Nat} (x : BitVec v) (y : BitVec w) : (x ++ y).toNat = x.toNat * 2 ^ w + y.toNat := by
  rw [BitVec.toNat_append, ← Nat.shiftLeft_add_eq_or_of_lt y.isLt, Nat.shiftLeft_eq]

/-- A bit range as a number. -/
theorem extract_toNat {n : Nat} (x : BitVec n) (lo len : Nat) :
    (x.extractLsb' lo len).toNat = x.toNat / 2 ^ lo % 2 ^ len := by
  rw [BitVec.extractLsb'_toNat, Nat.shiftRight_eq_div_pow]

open Sys2Proof.Machine

/-- Which bit of a masked write comes from where (R12, R152). -/
theorem putField_getLsbD {n w : Nat} (b : BitVec n) (lo : Nat) (v : BitVec w) (i : Nat) (h : lo + w ≤ n) :
    (putField b lo v).getLsbD i = if lo ≤ i ∧ i < lo + w then v.getLsbD (i - lo) else b.getLsbD i := by
  unfold putField
  by_cases hi : i < n
  · simp only [BitVec.getLsbD_or, BitVec.getLsbD_and, BitVec.getLsbD_not, BitVec.getLsbD_shiftLeft,
      BitVec.getLsbD_setWidth, BitVec.getLsbD_allOnes, hi]
    by_cases h1 : lo ≤ i
    · by_cases h2 : i < lo + w
      · have h3 : i - lo < w := by omega
        have h4 : i - lo < n := by omega
        have h5 : ¬ i < lo := by omega
        simp [h1, h2, h3, h4, h5]
      · have h3 : ¬ i - lo < w := by omega
        have h5 : ¬ i < lo := by omega
        simp [h1, h2, h3, h5, BitVec.getLsbD_of_ge v (i - lo) (by omega)]
    · have h5 : i < lo := by omega
      simp [h1, h5]
  · have h2 : ¬ i < lo + w := by omega
    rw [if_neg (by omega), BitVec.getLsbD_of_ge _ _ (by omega), BitVec.getLsbD_of_ge _ _ (by omega)]

/-- Reading the range just written gives the value written. -/
theorem getField_putField_same {n w : Nat} (b : BitVec n) (lo : Nat) (v : BitVec w) (h : lo + w ≤ n) :
    getField (putField b lo v) lo w = v := by
  refine BitVec.eq_of_getLsbD_eq fun i hi => ?_
  simp only [getField, BitVec.getLsbD_extractLsb', hi, decide_true, Bool.true_and, putField_getLsbD b lo v _ h]
  rw [if_pos (by omega)]
  congr 1
  omega

/-- Reading a range that the write does not touch gives what it held. -/
theorem getField_putField_disjoint {n w : Nat} (b : BitVec n) (lo lo' w' : Nat) (v : BitVec w) (h : lo + w ≤ n)
    (hd : lo' + w' ≤ lo ∨ lo + w ≤ lo') : getField (putField b lo v) lo' w' = getField b lo' w' := by
  refine BitVec.eq_of_getLsbD_eq fun i hi => ?_
  simp only [getField, BitVec.getLsbD_extractLsb', hi, decide_true, Bool.true_and, putField_getLsbD b lo v _ h]
  rw [if_neg (by omega)]

end Sys2Proof.Laws
end

