-- ==== Sys2Proof/Laws/Encode.lean ====
section
/-! SUPPORT. An encoded word as a number, per payload format (30_encoding.md R72, R74); a word under a row's mask; and a
decoder's reserved check as a number. -/

namespace Sys2Proof.Laws

theorem encode_ldhex (ndig : BitVec 4) (val : BitVec 32) :
    (encode (.ldhex ndig val)).toNat = 0x01 * 2 ^ 43 + ndig.toNat * 2 ^ 32 + val.toNat := by
  show ((0x01#5 ++ 0#7 ++ ndig : BitVec 16) ++ val).toNat = _
  rw [append_toNat]
  show ((0x01#5 ++ 0#7 : BitVec 12) ++ ndig).toNat * 2 ^ 32 + val.toNat = _
  rw [append_toNat]
  simp only [BitVec.reduceAppend, BitVec.toNat_ofNat]
  omega

theorem encode_ldraw (fmt : Format) (val : BitVec 32) :
    (encode (.ldraw fmt val)).toNat = 0x02 * 2 ^ 43 + fmt.bit.toNat * 2 ^ 32 + val.toNat := by
  cases fmt <;> exact append_toNat _ val

theorem encode_newx (prio : BitVec 3) (p : BitVec 24) (sa da : BitVec 8) :
    (encode (.newx prio p sa da)).toNat =
      0x03 * 2 ^ 43 + prio.toNat * 2 ^ 40 + p.toNat * 2 ^ 16 + sa.toNat * 2 ^ 8 + da.toNat := by
  show ((0x03#5 ++ prio ++ p ++ sa : BitVec 40) ++ da).toNat = _
  rw [append_toNat]
  show ((0x03#5 ++ prio ++ p : BitVec 32) ++ sa).toNat * 2 ^ 8 + da.toNat = _
  rw [append_toNat]
  show (((0x03#5 ++ prio : BitVec 8) ++ p).toNat * 2 ^ 8 + sa.toNat) * 2 ^ 8 + da.toNat = _
  rw [append_toNat, append_toNat]
  simp only [BitVec.toNat_ofNat]
  omega

theorem encode_news (prio : BitVec 3) (sa : BitVec 8) :
    (encode (.news prio sa)).toNat = 0x04 * 2 ^ 43 + prio.toNat * 2 ^ 8 + sa.toNat := by
  show ((0x04#5 ++ 0#32 ++ prio : BitVec 40) ++ sa).toNat = _
  rw [append_toNat]
  show ((0x04#5 ++ 0#32 : BitVec 37) ++ prio).toNat * 2 ^ 8 + sa.toNat = _
  rw [append_toNat]
  simp only [BitVec.reduceAppend, BitVec.toNat_ofNat]
  omega

/-- Formats V1, V3, V8, V24 and CMP: a constant head and one operand. -/
theorem head_toNat {m n : Nat} (c : BitVec m) (v : BitVec n) (k : Nat) (hc : c.toNat * 2 ^ n = k) :
    (c ++ v).toNat = k + v.toNat := by
  rw [append_toNat, hc]

theorem encode_sprio (v : BitVec 3) : (encode (.sprio v)).toNat = 0x10 * 2 ^ 43 + v.toNat :=
  head_toNat (0x10#5 ++ 0#40) v _ (by decide)
theorem encode_sedp (v : BitVec 1) : (encode (.sedp v)).toNat = 0x11 * 2 ^ 43 + v.toNat :=
  head_toNat (0x11#5 ++ 0#42) v _ (by decide)
theorem encode_sdp (v : BitVec 1) : (encode (.sdp v)).toNat = 0x12 * 2 ^ 43 + v.toNat :=
  head_toNat (0x12#5 ++ 0#42) v _ (by decide)
theorem encode_spf (v : BitVec 8) : (encode (.spf v)).toNat = 0x13 * 2 ^ 43 + v.toNat :=
  head_toNat (0x13#5 ++ 0#35) v _ (by decide)
theorem encode_sps (v : BitVec 8) : (encode (.sps v)).toNat = 0x14 * 2 ^ 43 + v.toNat :=
  head_toNat (0x14#5 ++ 0#35) v _ (by decide)
theorem encode_ssa (v : BitVec 8) : (encode (.ssa v)).toNat = 0x15 * 2 ^ 43 + v.toNat :=
  head_toNat (0x15#5 ++ 0#35) v _ (by decide)
theorem encode_sda (v : BitVec 8) : (encode (.sda v)).toNat = 0x16 * 2 ^ 43 + v.toNat :=
  head_toNat (0x16#5 ++ 0#35) v _ (by decide)
theorem encode_spgn (v : BitVec 24) : (encode (.spgn v)).toNat = 0x17 * 2 ^ 43 + v.toNat :=
  head_toNat (0x17#5 ++ 0#19) v _ (by decide)
theorem encode_eq (fmt : Format) (val : BitVec 29) :
    (encode (.eq fmt val)).toNat = 0x1D * 2 ^ 43 + fmt.bit.toNat * 2 ^ 29 + val.toNat := by
  cases fmt <;> exact append_toNat _ val

/-- A word under a mask whose 1 bits are exactly those from bit `k` up, as every mask of R74's rows is. -/
theorem and_high_mask (w : Word) (k : Nat) (hk : k ≤ 48) :
    (w &&& (BitVec.allOnes 48 <<< k)).toNat = w.toNat / 2 ^ k * 2 ^ k := by
  have h : w &&& (BitVec.allOnes 48 <<< k) = w >>> k <<< k := by
    refine BitVec.eq_of_getLsbD_eq fun i hi => ?_
    simp only [BitVec.getLsbD_and, BitVec.getLsbD_shiftLeft, BitVec.getLsbD_allOnes, BitVec.getLsbD_ushiftRight, hi]
    by_cases h1 : i < k
    · simp [h1]
    · have h2 : i - k < 48 := by omega
      simp [h1, h2, Nat.add_sub_of_le (Nat.le_of_not_lt h1)]
  rw [h, BitVec.toNat_shiftLeft, BitVec.toNat_ushiftRight, Nat.shiftRight_eq_div_pow, Nat.shiftLeft_eq]
  have hw := w.isLt
  have hle : w.toNat / 2 ^ k * 2 ^ k ≤ w.toNat := Nat.div_mul_le_self _ _
  exact Nat.mod_eq_of_lt (by omega)

/-- `op` as a number. -/
theorem opOf_toNat (w : Word) : (opOf w).toNat = w.toNat / 2 ^ 43 % 2 ^ 5 := extract_toNat w 43 5

/-- The reserved check of the decoder (R75 (b)) as a number. -/
theorem reservedZero_eq (w : Word) (lo len : Nat) (i : Instr) :
    reservedZero w lo len i = if w.toNat / 2 ^ lo % 2 ^ len = 0 then .ok i else .error .reservedBit := by
  unfold reservedZero
  have h : w.extractLsb' lo len = 0#len ↔ w.toNat / 2 ^ lo % 2 ^ len = 0 := by
    rw [← BitVec.toNat_inj, extract_toNat, BitVec.toNat_ofNat, Nat.zero_mod]
  simp only [h]

theorem formatOfBit_bit (f : Format) : formatOfBit f.bit = f := by cases f <;> rfl

end Sys2Proof.Laws
end

