-- ==== Sys2Proof/Laws/Layout.lean ====
section
/-! SUPPORT. The two layouts: a field read after a field write, every pair (42_field_write.md R152); a value is given by
its fields (41_field_read.md R134 (a)); and the fields as numbers (30_encoding.md R61, R62). -/

namespace Sys2Proof.Laws

open Sys2Proof.Machine

/-! ### Extended fields after a write -/

@[simp] theorem xPrio_putXPrio (b : BitVec 29) (v : BitVec 3) : xPrio (putXPrio b v) = v :=
  getField_putField_same b 26 v (by decide)
@[simp] theorem xEdp_putXPrio (b : BitVec 29) (v : BitVec 3) : xEdp (putXPrio b v) = xEdp b :=
  getField_putField_disjoint b 26 25 1 v (by decide) (by decide)
@[simp] theorem xDp_putXPrio (b : BitVec 29) (v : BitVec 3) : xDp (putXPrio b v) = xDp b :=
  getField_putField_disjoint b 26 24 1 v (by decide) (by decide)
@[simp] theorem xPf_putXPrio (b : BitVec 29) (v : BitVec 3) : xPf (putXPrio b v) = xPf b :=
  getField_putField_disjoint b 26 16 8 v (by decide) (by decide)
@[simp] theorem xPs_putXPrio (b : BitVec 29) (v : BitVec 3) : xPs (putXPrio b v) = xPs b :=
  getField_putField_disjoint b 26 8 8 v (by decide) (by decide)
@[simp] theorem xSa_putXPrio (b : BitVec 29) (v : BitVec 3) : xSa (putXPrio b v) = xSa b :=
  getField_putField_disjoint b 26 0 8 v (by decide) (by decide)

@[simp] theorem xPrio_putXEdp (b : BitVec 29) (v : BitVec 1) : xPrio (putXEdp b v) = xPrio b :=
  getField_putField_disjoint b 25 26 3 v (by decide) (by decide)
@[simp] theorem xEdp_putXEdp (b : BitVec 29) (v : BitVec 1) : xEdp (putXEdp b v) = v :=
  getField_putField_same b 25 v (by decide)
@[simp] theorem xDp_putXEdp (b : BitVec 29) (v : BitVec 1) : xDp (putXEdp b v) = xDp b :=
  getField_putField_disjoint b 25 24 1 v (by decide) (by decide)
@[simp] theorem xPf_putXEdp (b : BitVec 29) (v : BitVec 1) : xPf (putXEdp b v) = xPf b :=
  getField_putField_disjoint b 25 16 8 v (by decide) (by decide)
@[simp] theorem xPs_putXEdp (b : BitVec 29) (v : BitVec 1) : xPs (putXEdp b v) = xPs b :=
  getField_putField_disjoint b 25 8 8 v (by decide) (by decide)
@[simp] theorem xSa_putXEdp (b : BitVec 29) (v : BitVec 1) : xSa (putXEdp b v) = xSa b :=
  getField_putField_disjoint b 25 0 8 v (by decide) (by decide)

@[simp] theorem xPrio_putXDp (b : BitVec 29) (v : BitVec 1) : xPrio (putXDp b v) = xPrio b :=
  getField_putField_disjoint b 24 26 3 v (by decide) (by decide)
@[simp] theorem xEdp_putXDp (b : BitVec 29) (v : BitVec 1) : xEdp (putXDp b v) = xEdp b :=
  getField_putField_disjoint b 24 25 1 v (by decide) (by decide)
@[simp] theorem xDp_putXDp (b : BitVec 29) (v : BitVec 1) : xDp (putXDp b v) = v :=
  getField_putField_same b 24 v (by decide)
@[simp] theorem xPf_putXDp (b : BitVec 29) (v : BitVec 1) : xPf (putXDp b v) = xPf b :=
  getField_putField_disjoint b 24 16 8 v (by decide) (by decide)
@[simp] theorem xPs_putXDp (b : BitVec 29) (v : BitVec 1) : xPs (putXDp b v) = xPs b :=
  getField_putField_disjoint b 24 8 8 v (by decide) (by decide)
@[simp] theorem xSa_putXDp (b : BitVec 29) (v : BitVec 1) : xSa (putXDp b v) = xSa b :=
  getField_putField_disjoint b 24 0 8 v (by decide) (by decide)

@[simp] theorem xPrio_putXPf (b : BitVec 29) (v : BitVec 8) : xPrio (putXPf b v) = xPrio b :=
  getField_putField_disjoint b 16 26 3 v (by decide) (by decide)
@[simp] theorem xEdp_putXPf (b : BitVec 29) (v : BitVec 8) : xEdp (putXPf b v) = xEdp b :=
  getField_putField_disjoint b 16 25 1 v (by decide) (by decide)
@[simp] theorem xDp_putXPf (b : BitVec 29) (v : BitVec 8) : xDp (putXPf b v) = xDp b :=
  getField_putField_disjoint b 16 24 1 v (by decide) (by decide)
@[simp] theorem xPf_putXPf (b : BitVec 29) (v : BitVec 8) : xPf (putXPf b v) = v :=
  getField_putField_same b 16 v (by decide)
@[simp] theorem xPs_putXPf (b : BitVec 29) (v : BitVec 8) : xPs (putXPf b v) = xPs b :=
  getField_putField_disjoint b 16 8 8 v (by decide) (by decide)
@[simp] theorem xSa_putXPf (b : BitVec 29) (v : BitVec 8) : xSa (putXPf b v) = xSa b :=
  getField_putField_disjoint b 16 0 8 v (by decide) (by decide)

@[simp] theorem xPrio_putXPs (b : BitVec 29) (v : BitVec 8) : xPrio (putXPs b v) = xPrio b :=
  getField_putField_disjoint b 8 26 3 v (by decide) (by decide)
@[simp] theorem xEdp_putXPs (b : BitVec 29) (v : BitVec 8) : xEdp (putXPs b v) = xEdp b :=
  getField_putField_disjoint b 8 25 1 v (by decide) (by decide)
@[simp] theorem xDp_putXPs (b : BitVec 29) (v : BitVec 8) : xDp (putXPs b v) = xDp b :=
  getField_putField_disjoint b 8 24 1 v (by decide) (by decide)
@[simp] theorem xPf_putXPs (b : BitVec 29) (v : BitVec 8) : xPf (putXPs b v) = xPf b :=
  getField_putField_disjoint b 8 16 8 v (by decide) (by decide)
@[simp] theorem xPs_putXPs (b : BitVec 29) (v : BitVec 8) : xPs (putXPs b v) = v :=
  getField_putField_same b 8 v (by decide)
@[simp] theorem xSa_putXPs (b : BitVec 29) (v : BitVec 8) : xSa (putXPs b v) = xSa b :=
  getField_putField_disjoint b 8 0 8 v (by decide) (by decide)

@[simp] theorem xPrio_putXSa (b : BitVec 29) (v : BitVec 8) : xPrio (putXSa b v) = xPrio b :=
  getField_putField_disjoint b 0 26 3 v (by decide) (by decide)
@[simp] theorem xEdp_putXSa (b : BitVec 29) (v : BitVec 8) : xEdp (putXSa b v) = xEdp b :=
  getField_putField_disjoint b 0 25 1 v (by decide) (by decide)
@[simp] theorem xDp_putXSa (b : BitVec 29) (v : BitVec 8) : xDp (putXSa b v) = xDp b :=
  getField_putField_disjoint b 0 24 1 v (by decide) (by decide)
@[simp] theorem xPf_putXSa (b : BitVec 29) (v : BitVec 8) : xPf (putXSa b v) = xPf b :=
  getField_putField_disjoint b 0 16 8 v (by decide) (by decide)
@[simp] theorem xPs_putXSa (b : BitVec 29) (v : BitVec 8) : xPs (putXSa b v) = xPs b :=
  getField_putField_disjoint b 0 8 8 v (by decide) (by decide)
@[simp] theorem xSa_putXSa (b : BitVec 29) (v : BitVec 8) : xSa (putXSa b v) = v :=
  getField_putField_same b 0 v (by decide)

/-! ### Standard fields after a write -/

@[simp] theorem sPrio_putSPrio (s : BitVec 11) (v : BitVec 3) : sPrio (putSPrio s v) = v :=
  getField_putField_same s 8 v (by decide)
@[simp] theorem sSa_putSPrio (s : BitVec 11) (v : BitVec 3) : sSa (putSPrio s v) = sSa s :=
  getField_putField_disjoint s 8 0 8 v (by decide) (by decide)
@[simp] theorem sPrio_putSSa (s : BitVec 11) (v : BitVec 8) : sPrio (putSSa s v) = sPrio s :=
  getField_putField_disjoint s 0 8 3 v (by decide) (by decide)
@[simp] theorem sSa_putSSa (s : BitVec 11) (v : BitVec 8) : sSa (putSSa s v) = v :=
  getField_putField_same s 0 v (by decide)

/-! ### Fields as numbers -/

theorem xPrio_toNat (b : BitVec 29) : (xPrio b).toNat = b.toNat / 2 ^ 26 % 2 ^ 3 := extract_toNat b 26 3
theorem xEdp_toNat (b : BitVec 29) : (xEdp b).toNat = b.toNat / 2 ^ 25 % 2 ^ 1 := extract_toNat b 25 1
theorem xDp_toNat (b : BitVec 29) : (xDp b).toNat = b.toNat / 2 ^ 24 % 2 ^ 1 := extract_toNat b 24 1
theorem xPf_toNat (b : BitVec 29) : (xPf b).toNat = b.toNat / 2 ^ 16 % 2 ^ 8 := extract_toNat b 16 8
theorem xPs_toNat (b : BitVec 29) : (xPs b).toNat = b.toNat / 2 ^ 8 % 2 ^ 8 := extract_toNat b 8 8
theorem xSa_toNat (b : BitVec 29) : (xSa b).toNat = b.toNat / 2 ^ 0 % 2 ^ 8 := extract_toNat b 0 8
theorem sPrio_toNat (s : BitVec 11) : (sPrio s).toNat = s.toNat / 2 ^ 8 % 2 ^ 3 := extract_toNat s 8 3
theorem sSa_toNat (s : BitVec 11) : (sSa s).toNat = s.toNat / 2 ^ 0 % 2 ^ 8 := extract_toNat s 0 8

/-- An Extended value is given by its six fields. -/
theorem ext_of_fields {a b : BitVec 29} (h1 : xPrio a = xPrio b) (h2 : xEdp a = xEdp b) (h3 : xDp a = xDp b)
    (h4 : xPf a = xPf b) (h5 : xPs a = xPs b) (h6 : xSa a = xSa b) : a = b := by
  have e1 := congrArg BitVec.toNat h1
  have e2 := congrArg BitVec.toNat h2
  have e3 := congrArg BitVec.toNat h3
  have e4 := congrArg BitVec.toNat h4
  have e5 := congrArg BitVec.toNat h5
  have e6 := congrArg BitVec.toNat h6
  rw [xPrio_toNat, xPrio_toNat] at e1
  rw [xEdp_toNat, xEdp_toNat] at e2
  rw [xDp_toNat, xDp_toNat] at e3
  rw [xPf_toNat, xPf_toNat] at e4
  rw [xPs_toNat, xPs_toNat] at e5
  rw [xSa_toNat, xSa_toNat] at e6
  have ha := a.isLt
  have hb := b.isLt
  exact BitVec.eq_of_toNat_eq (by omega)

/-- A Standard value is given by its two fields. -/
theorem std_of_fields {a b : BitVec 11} (h1 : sPrio a = sPrio b) (h2 : sSa a = sSa b) : a = b := by
  have e1 := congrArg BitVec.toNat h1
  have e2 := congrArg BitVec.toNat h2
  rw [sPrio_toNat, sPrio_toNat] at e1
  rw [sSa_toNat, sSa_toNat] at e2
  have ha := a.isLt
  have hb := b.isLt
  exact BitVec.eq_of_toNat_eq (by omega)

/-! ### The derived values as numbers -/

theorem pduType_eq_type1 (pf : BitVec 8) : pduType pf = .type1 ↔ pf.toNat < 240 := by
  unfold pduType Config.pdu1Limit
  split <;> simp_all

theorem pduType_eq_type2 (pf : BitVec 8) : pduType pf = .type2 ↔ 240 ≤ pf.toNat := by
  unfold pduType Config.pdu1Limit
  split <;> simp_all

/-- `p = edp*2^17 + dp*2^16 + pf*2^8 + (type 2 ? ps : 0)` (R63). -/
theorem pgn_toNat (b : BitVec 29) :
    (pgn b).toNat = (xEdp b).toNat * 2 ^ 17 + (xDp b).toNat * 2 ^ 16 + (xPf b).toNat * 2 ^ 8 +
      (if (xPf b).toNat < 240 then 0 else (xPs b).toNat) := by
  unfold pgn
  rw [append_toNat, append_toNat, append_toNat, append_toNat]
  by_cases h : (xPf b).toNat < 240
  · rw [(pduType_eq_type1 _).mpr h, if_pos h]
    simp only [BitVec.toNat_ofNat]
    omega
  · rw [(pduType_eq_type2 _).mpr (by omega), if_neg h]
    simp only [BitVec.toNat_ofNat]
    omega

/-- The fields of a value after the four PGN fields are written from `p` (R64, R148). -/
@[simp] theorem xPrio_putPgnParts (b : BitVec 29) (p : BitVec 24) : xPrio (putPgnParts b p) = xPrio b := by
  simp [putPgnParts]
@[simp] theorem xEdp_putPgnParts (b : BitVec 29) (p : BitVec 24) : xEdp (putPgnParts b p) = (pgnSplit p).edp := by
  simp [putPgnParts]
@[simp] theorem xDp_putPgnParts (b : BitVec 29) (p : BitVec 24) : xDp (putPgnParts b p) = (pgnSplit p).dp := by
  simp [putPgnParts]
@[simp] theorem xPf_putPgnParts (b : BitVec 29) (p : BitVec 24) : xPf (putPgnParts b p) = (pgnSplit p).pf := by
  simp [putPgnParts]
@[simp] theorem xPs_putPgnParts (b : BitVec 29) (p : BitVec 24) : xPs (putPgnParts b p) = (pgnSplit p).ps := by
  simp [putPgnParts]
@[simp] theorem xSa_putPgnParts (b : BitVec 29) (p : BitVec 24) : xSa (putPgnParts b p) = xSa b := by
  simp [putPgnParts]

theorem pgnSplit_edp_toNat (p : BitVec 24) : (pgnSplit p).edp.toNat = p.toNat / 2 ^ 17 % 2 ^ 1 := extract_toNat p 17 1
theorem pgnSplit_dp_toNat (p : BitVec 24) : (pgnSplit p).dp.toNat = p.toNat / 2 ^ 16 % 2 ^ 1 := extract_toNat p 16 1
theorem pgnSplit_pf_toNat (p : BitVec 24) : (pgnSplit p).pf.toNat = p.toNat / 2 ^ 8 % 2 ^ 8 := extract_toNat p 8 8
theorem pgnSplit_ps_toNat (p : BitVec 24) : (pgnSplit p).ps.toNat = p.toNat / 2 ^ 0 % 2 ^ 8 := extract_toNat p 0 8

end Sys2Proof.Laws
end

