-- ==== Sys2Proof/Laws/State.lean ====
section
/-! SUPPORT. One lemma per field per update of State, and what State.reset holds. -/

namespace Sys2Proof.Machine

@[simp] theorem State.hold_slot (s : State) (i : Ident) : (s.hold i).slot = some i := rfl
@[simp] theorem State.hold_policy (s : State) (i : Ident) : (s.hold i).policy = s.policy := rfl
@[simp] theorem State.hold_input (s : State) (i : Ident) : (s.hold i).input = s.input := rfl
@[simp] theorem State.hold_output (s : State) (i : Ident) : (s.hold i).output = s.output := rfl

@[simp] theorem State.withFetchWord_slot (s : State) (n w : Nat) : (s.withFetchWord n w).slot = s.slot := rfl
@[simp] theorem State.withFetchWord_policy (s : State) (n w : Nat) : (s.withFetchWord n w).policy = s.policy := rfl
@[simp] theorem State.withFetchWord_output (s : State) (n w : Nat) : (s.withFetchWord n w).output = s.output := rfl
@[simp] theorem State.withFetchWord_input (s : State) (n w : Nat) :
    (s.withFetchWord n w).input = .command (tableWord n w) :: s.input := rfl

@[simp] theorem State.reset_slot : State.reset.slot = none := rfl
@[simp] theorem State.reset_policy : State.reset.policy = .rollback := rfl
@[simp] theorem State.reset_input : State.reset.input = [] := rfl
@[simp] theorem State.reset_output : State.reset.output = [] := rfl

@[simp] theorem Ident.fmt_std (s : BitVec 11) : (Ident.std s).fmt = .std := rfl
@[simp] theorem Ident.fmt_ext (b : BitVec 29) : (Ident.ext b).fmt = .ext := rfl
@[simp] theorem Ident.fmt_putPrio (v : BitVec 3) (i : Ident) : (i.putPrio v).fmt = i.fmt := by cases i <;> rfl
@[simp] theorem Ident.fmt_putSa (v : BitVec 8) (i : Ident) : (i.putSa v).fmt = i.fmt := by cases i <;> rfl

end Sys2Proof.Machine
end

