-- ==== Sys2Proof/Laws/Ops.lean ====
section
/-! SUPPORT. What each shared operation of the machine can do, said once: how a command ends, the two preambles, the
constructor's end, and the taking of the host's next event. -/

namespace Sys2Proof.Laws

open Sys2Proof.Machine

/-- A response is appended; nothing else changes (R28, R76). -/
theorem respond_next {r : Response} {s t : State} (h : respond r s = .next t) :
    t.slot = s.slot ∧ t.policy = s.policy ∧ t.input = s.input ∧ t.output = s.output ++ [r] := by
  cases h
  exact ⟨rfl, rfl, rfl, rfl⟩

/-- An error's only effect is its response (R12, R192). -/
theorem raise_next {k : Status} {s t : State} (h : raise k s = .next t) :
    t.slot = s.slot ∧ t.policy = s.policy ∧ t.input = s.input ∧ t.output = s.output ++ [Response.error k] :=
  respond_next h

/-- A successful write holds its identifier and answers OK with no payload (R105, R152). -/
theorem publish_next {d : Bool} {i : Ident} {s t : State} (h : publish d i s = .next t) :
    t.slot = some i ∧ t.policy = s.policy ∧ t.input = s.input ∧ t.output = s.output ++ [Response.done d] := by
  cases h
  exact ⟨rfl, rfl, rfl, rfl⟩

@[simp] theorem withIdent_none {s : State} (k : Ident → Host.Outcome State Fault Refusal) (h : s.slot = none) :
    withIdent s k = raise .noIdentifier s := by
  simp [withIdent, h]

@[simp] theorem withIdent_some {s : State} {i : Ident} (k : Ident → Host.Outcome State Fault Refusal)
    (h : s.slot = some i) : withIdent s k = k i := by
  simp [withIdent, h]

@[simp] theorem withExt_none {s : State} (k : BitVec 29 → Host.Outcome State Fault Refusal) (h : s.slot = none) :
    withExt s k = raise .noIdentifier s := by
  simp [withExt, h]

@[simp] theorem withExt_std {s : State} {x : BitVec 11} (k : BitVec 29 → Host.Outcome State Fault Refusal)
    (h : s.slot = some (.std x)) : withExt s k = raise .wrongFormat s := by
  simp [withExt, h]

@[simp] theorem withExt_ext {s : State} {b : BitVec 29} (k : BitVec 29 → Host.Outcome State Fault Refusal)
    (h : s.slot = some (.ext b)) : withExt s k = k b := by
  simp [withExt, h]

/-- The three ways out of the Extended-only preamble (R133, R140). -/
theorem withExt_cases (s : State) (k : BitVec 29 → Host.Outcome State Fault Refusal) :
    (s.slot = none ∧ withExt s k = raise .noIdentifier s) ∨
    (∃ x, s.slot = some (.std x) ∧ withExt s k = raise .wrongFormat s) ∨
    (∃ b, s.slot = some (.ext b) ∧ withExt s k = k b) := by
  rcases h : s.slot with _ | _ | _ <;> simp [withExt, h]

/-- The two ways out of the preamble of a command that serves both formats (R133, R140, R166). -/
theorem withIdent_cases (s : State) (k : Ident → Host.Outcome State Fault Refusal) :
    (s.slot = none ∧ withIdent s k = raise .noIdentifier s) ∨ (∃ i, s.slot = some i ∧ withIdent s k = k i) := by
  rcases h : s.slot with _ | i <;> simp [withIdent, h]

/-- A constructor either holds its identifier and answers OK, or changes nothing and answers its error (R104, R105). -/
theorem construct_next {r : Except Status Ident} {s t : State} (h : construct r s = .next t) :
    (∃ i, r = .ok i ∧ t = { s with slot := some i, output := s.output ++ [Response.done false] }) ∨
    (∃ k, r = .error k ∧ t = { s with output := s.output ++ [Response.error k] }) := by
  cases r with
  | ok i => exact .inl ⟨i, rfl, by cases h; rfl⟩
  | error k => exact .inr ⟨k, rfl, by cases h; rfl⟩

/-- A rejected PGN write under each policy (R148). -/
theorem afterRejectedPgn_rollback {s : State} (b : BitVec 29) (h : s.policy = .rollback) : afterRejectedPgn b s = s := by
  simp [afterRejectedPgn, h]

theorem afterRejectedPgn_keepPartial {s : State} (b : BitVec 29) (h : s.policy = .keepPartial) :
    afterRejectedPgn b s = s.hold (.ext b) := by
  simp [afterRejectedPgn, h]

/-- A step with no event presented (R191). -/
theorem step_idle {s : State} (h : s.input = []) : step s = .next s := by
  simp [step, State.takeEvent, h, idle]

/-- A step that takes a reset (R210). -/
theorem step_rst {s : State} {rest : List HostEvent} (h : s.input = .rst :: rest) :
    step s = .next { s with slot := none, input := rest } := by
  simp [step, State.takeEvent, h, takeReset]

/-- A step that takes a command runs it on the state without that event (R52, R71). -/
theorem step_command {s : State} {w : Word} {rest : List HostEvent} (h : s.input = .command w :: rest) :
    step s = runCommand w { s with input := rest } := by
  simp [step, State.takeEvent, h]

end Sys2Proof.Laws
end

