-- ==== Sys2Proof/Laws/PerInstr.lean ====
section
/-! SUPPORT. Statements made for every instruction as syntax, one lemma per constructor. -/

namespace Sys2Proof.Laws.MatchesRow

/-- The instruction's word spells the row of opcode_table.json that has its mnemonic (30_encoding.md R74). -/
def Statement (i : Instr) : Prop := ∃ r ∈ opcodeRows, r.mnemonic = i.mnemonic ∧ r.matchesWord (encode i) = true

/-- A word matches a row whose fixed bits are those from bit `k` up iff the part from bit `k` up is the row's. -/
theorem of_high {i : Instr} (r : OpcodeRow) (k : Nat) (hm : r ∈ opcodeRows) (hn : r.mnemonic = i.mnemonic)
    (hk : k ≤ 48) (hmask : r.mask = BitVec.allOnes 48 <<< k)
    (hw : (encode i).toNat / 2 ^ k * 2 ^ k = r.fixed.toNat) : Statement i := by
  refine ⟨r, hm, hn, ?_⟩
  simp only [OpcodeRow.matchesWord, beq_iff_eq]
  refine BitVec.eq_of_toNat_eq ?_
  rw [hmask, and_high_mask _ _ hk, hw]

theorem ldhex (ndig : BitVec 4) (val : BitVec 32) : Statement (.ldhex ndig val) :=
  of_high ⟨"LDHEX", 0xFFF000000000#48, 0x080000000000#48⟩ 36 (by decide) rfl (by decide) (by decide)
    (by rw [encode_ldhex]; simp only [BitVec.toNat_ofNat]; omega)
theorem ldraw (fmt : Format) (val : BitVec 32) : Statement (.ldraw fmt val) :=
  of_high ⟨"LDRAW", 0xFFFE00000000#48, 0x100000000000#48⟩ 33 (by decide) rfl (by decide) (by decide)
    (by rw [encode_ldraw]; simp only [BitVec.toNat_ofNat]; omega)
theorem newx (prio : BitVec 3) (p : BitVec 24) (sa da : BitVec 8) : Statement (.newx prio p sa da) :=
  of_high ⟨"NEWX", 0xF80000000000#48, 0x180000000000#48⟩ 43 (by decide) rfl (by decide) (by decide)
    (by rw [encode_newx]; simp only [BitVec.toNat_ofNat]; omega)
theorem news (prio : BitVec 3) (sa : BitVec 8) : Statement (.news prio sa) :=
  of_high ⟨"NEWS", 0xFFFFFFFFF800#48, 0x200000000000#48⟩ 11 (by decide) rfl (by decide) (by decide)
    (by rw [encode_news]; simp only [BitVec.toNat_ofNat]; omega)
theorem gprio : Statement .gprio := by unfold Statement; decide
theorem gedp : Statement .gedp := by unfold Statement; decide
theorem gdp : Statement .gdp := by unfold Statement; decide
theorem gpf : Statement .gpf := by unfold Statement; decide
theorem gps : Statement .gps := by unfold Statement; decide
theorem gsa : Statement .gsa := by unfold Statement; decide
theorem gda : Statement .gda := by unfold Statement; decide
theorem gpgn : Statement .gpgn := by unfold Statement; decide
theorem sprio (v : BitVec 3) : Statement (.sprio v) :=
  of_high ⟨"SPRIO", 0xFFFFFFFFFFF8#48, 0x800000000000#48⟩ 3 (by decide) rfl (by decide) (by decide)
    (by rw [encode_sprio]; simp only [BitVec.toNat_ofNat]; omega)
theorem sedp (v : BitVec 1) : Statement (.sedp v) :=
  of_high ⟨"SEDP", 0xFFFFFFFFFFFE#48, 0x880000000000#48⟩ 1 (by decide) rfl (by decide) (by decide)
    (by rw [encode_sedp]; simp only [BitVec.toNat_ofNat]; omega)
theorem sdp (v : BitVec 1) : Statement (.sdp v) :=
  of_high ⟨"SDP", 0xFFFFFFFFFFFE#48, 0x900000000000#48⟩ 1 (by decide) rfl (by decide) (by decide)
    (by rw [encode_sdp]; simp only [BitVec.toNat_ofNat]; omega)
theorem spf (v : BitVec 8) : Statement (.spf v) :=
  of_high ⟨"SPF", 0xFFFFFFFFFF00#48, 0x980000000000#48⟩ 8 (by decide) rfl (by decide) (by decide)
    (by rw [encode_spf]; simp only [BitVec.toNat_ofNat]; omega)
theorem sps (v : BitVec 8) : Statement (.sps v) :=
  of_high ⟨"SPS", 0xFFFFFFFFFF00#48, 0xA00000000000#48⟩ 8 (by decide) rfl (by decide) (by decide)
    (by rw [encode_sps]; simp only [BitVec.toNat_ofNat]; omega)
theorem ssa (v : BitVec 8) : Statement (.ssa v) :=
  of_high ⟨"SSA", 0xFFFFFFFFFF00#48, 0xA80000000000#48⟩ 8 (by decide) rfl (by decide) (by decide)
    (by rw [encode_ssa]; simp only [BitVec.toNat_ofNat]; omega)
theorem sda (v : BitVec 8) : Statement (.sda v) :=
  of_high ⟨"SDA", 0xFFFFFFFFFF00#48, 0xB00000000000#48⟩ 8 (by decide) rfl (by decide) (by decide)
    (by rw [encode_sda]; simp only [BitVec.toNat_ofNat]; omega)
theorem spgn (v : BitVec 24) : Statement (.spgn v) :=
  of_high ⟨"SPGN", 0xFFFFFF000000#48, 0xB80000000000#48⟩ 24 (by decide) rfl (by decide) (by decide)
    (by rw [encode_spgn]; simp only [BitVec.toNat_ofNat]; omega)
theorem gtype : Statement .gtype := by unfold Statement; decide
theorem gfmt : Statement .gfmt := by unfold Statement; decide
theorem tohex : Statement .tohex := by unfold Statement; decide
theorem tobin : Statement .tobin := by unfold Statement; decide
theorem dump : Statement .dump := by unfold Statement; decide
theorem eq (fmt : Format) (val : BitVec 29) : Statement (.eq fmt val) :=
  of_high ⟨"EQ", 0xFFFFC0000000#48, 0xE80000000000#48⟩ 30 (by decide) rfl (by decide) (by decide)
    (by rw [encode_eq]; simp only [BitVec.toNat_ofNat]; omega)

end Sys2Proof.Laws.MatchesRow
end

