-- ==== Sys2Proof/Laws/Response.lean ====
section
/-! SUPPORT. The responses and states in the words claims use (Safety.lean): what `respond`, `raise` and `publish` answer,
and a masked write as arithmetic. -/

namespace Sys2Proof.Laws

open Sys2Proof.Machine Sys2Proof.Safety

theorem respond_eq (r : Response) (s : State) : respond r s = .next (after s s.slot r) := rfl

theorem raise_eq (k : Status) (s : State) : raise k s = .next (after s s.slot (errorIs k)) := rfl

theorem publish_eq (d : Bool) (i : Ident) (s : State) : publish d i s = .next (after s (some i) (okDone d)) := rfl

/-- A numeric payload by its value. -/
theorem number_eq {w : Nat} (v : BitVec w) : Response.number v = okNumber v.toNat := by
  simp [Response.number, okNumber, BitVec.ofNat_toNat]

/-- A string payload by its length and the number that carries it. -/
theorem string_eq {w : Nat} (len : Nat) (v : BitVec w) : Response.string len v = okString len v.toNat := by
  simp [Response.string, okString, BitVec.ofNat_toNat]

/-- A masked write as plain arithmetic (R12, R62). -/
theorem putField_toNat {n w : Nat} (b : BitVec n) (lo : Nat) (v : BitVec w) (h : lo + w ≤ n) :
    (putField b lo v).toNat = replacedBits b.toNat lo w v.toNat := by
  have hmid := congrArg BitVec.toNat (getField_putField_same b lo v h)
  have hlow := congrArg BitVec.toNat (getField_putField_disjoint b lo 0 lo v h (.inl (by omega)))
  have hhigh := congrArg BitVec.toNat
    (getField_putField_disjoint b lo (lo + w) (n - (lo + w)) v h (.inr (Nat.le_refl _)))
  simp only [getField, extract_toNat, Nat.pow_zero, Nat.div_one] at hmid hlow hhigh
  have hq : ∀ x : BitVec n, x.toNat / 2 ^ (lo + w) < 2 ^ (n - (lo + w)) := fun x => by
    rw [Nat.div_lt_iff_lt_mul (Nat.two_pow_pos _), ← Nat.pow_add, Nat.sub_add_cancel h]
    exact x.isLt
  rw [Nat.mod_eq_of_lt (hq _), Nat.mod_eq_of_lt (hq _)] at hhigh
  unfold replacedBits
  rw [← hhigh, ← hmid, ← hlow]
  generalize (putField b lo v).toNat = y
  have e1 : y / 2 ^ (lo + w) = y / 2 ^ lo / 2 ^ w := by rw [Nat.pow_add, Nat.div_div_eq_div_mul]
  rw [e1, Nat.pow_add]
  have h1 := Nat.div_add_mod y (2 ^ lo)
  have h2 := Nat.div_add_mod (y / 2 ^ lo) (2 ^ w)
  generalize y / 2 ^ lo = q at *
  generalize q / 2 ^ w = q2 at *
  calc y = 2 ^ lo * q + y % 2 ^ lo := h1.symm
    _ = 2 ^ lo * (2 ^ w * q2 + q % 2 ^ w) + y % 2 ^ lo := by rw [h2]
    _ = q2 * (2 ^ lo * 2 ^ w) + q % 2 ^ w * 2 ^ lo + y % 2 ^ lo := by ring

/-- A masked write as a number given at the identifier's width. -/
theorem putField_ofNat {n w : Nat} (b : BitVec n) (lo : Nat) (v : BitVec w) (h : lo + w ≤ n) :
    putField b lo v = BitVec.ofNat n (replacedBits b.toNat lo w v.toNat) := by
  rw [← putField_toNat b lo v h, BitVec.ofNat_toNat, BitVec.setWidth_eq]

end Sys2Proof.Laws
end

