-- ==== Sys2Proof/Tests/Slice0.lean ====
section
/-! SUPPORT. The model's own tests: the well-formedness smoke, the words of 30_encoding.md R74, one or two vectors of
95_test_vectors.md per command, and a witness for the hypotheses of every statement. The expected values are the
spec's. -/

namespace Sys2Proof.Tests

open Sys2Proof.Machine Sys2Proof.Safety

/-! ### States and results -/

/-- A block that holds nothing and has been given nothing. -/
def empty : State := State.reset

/-- A block that holds a Standard identifier. -/
def onStd (x : BitVec 11) : State := { State.reset with slot := some (.std x) }

/-- A block that holds an Extended identifier. -/
def onExt (b : BitVec 29) : State := { State.reset with slot := some (.ext b) }

/-- The same block with its strap at PARTIAL. -/
def partially (s : State) : State := { s with policy := .keepPartial }

/-- The same block with that event presented next. -/
def presented (e : HostEvent) (s : State) : State := { s with input := [e] }

/-- What the block holds and the last response it gave, where the outcome is a next state. -/
def result (o : Host.Outcome State Fault Refusal) : Option (Option Ident × Option Response) :=
  match o with
  | .next t => some (t.slot, t.output.getLast?)
  | _ => none

/-- The payload of the last response, as the command `i` carries it. -/
def payloadOf (i : Instr) (s : State) : Option Payload :=
  match exec i s with
  | .next t => t.output.getLast?.map fun r => r.payload i
  | _ => none

/-- Error and success responses as a vector's row writes them. -/
def extAnd (b : BitVec 29) (r : Response) : Option (Option Ident × Option Response) := some (some (.ext b), some r)
def stdAnd (x : BitVec 11) (r : Response) : Option (Option Ident × Option Response) := some (some (.std x), some r)
def noneAnd (r : Response) : Option (Option Ident × Option Response) := some (none, some r)

/-! ### Well-formedness: R75 (c) is the one check that the operand types leave -/

theorem test_wf_refuses_wide_hex_operand : (Instr.ldhex 3#4 0x1000#32).wf = false := by decide
theorem test_wf_refuses_seven_digit_overflow : (Instr.ldhex 7#4 0x10000000#32).wf = false := by decide
theorem test_wf_accepts_largest_hex_operands :
    (Instr.ldhex 3#4 0xFFF#32).wf = true ∧ (Instr.ldhex 8#4 0xFFFFFFFF#32).wf = true ∧
    (Instr.ldhex 0#4 0xFFFFFFFF#32).wf = true ∧ (Instr.ldhex 9#4 0xFFFFFFFF#32).wf = true := by decide

/-! ### Decoding: R74's 48-character patterns, `op` before the underscore, the operand bits filled in by R72 -/

theorem test_decode_ldhex : decodeTableWord 48 0b00001_0000000001100000000000000000000011111111111 =
    some (.ldhex 3#4 0x7FF#32) := by decide
theorem test_decode_ldraw : decodeTableWord 48 0b00010_0000000000100011000111111101111000100000000 =
    some (.ldraw .ext 0x18FEF100#32) := by decide
theorem test_decode_newx : decodeTableWord 48 0b00011_1100000001111101111000000001000000001010101 =
    some (.newx 6#3 0x03EF00#24 0x80#8 0x55#8) := by decide
theorem test_decode_news : decodeTableWord 48 0b00100_0000000000000000000000000000000001100100001 =
    some (.news 3#3 0x21#8) := by decide
theorem test_decode_gprio : decodeTableWord 48 0b01000_0000000000000000000000000000000000000000000 =
    some .gprio := by decide
theorem test_decode_gedp : decodeTableWord 48 0b01001_0000000000000000000000000000000000000000000 =
    some .gedp := by decide
theorem test_decode_gdp : decodeTableWord 48 0b01010_0000000000000000000000000000000000000000000 =
    some .gdp := by decide
theorem test_decode_gpf : decodeTableWord 48 0b01011_0000000000000000000000000000000000000000000 =
    some .gpf := by decide
theorem test_decode_gps : decodeTableWord 48 0b01100_0000000000000000000000000000000000000000000 =
    some .gps := by decide
theorem test_decode_gsa : decodeTableWord 48 0b01101_0000000000000000000000000000000000000000000 =
    some .gsa := by decide
theorem test_decode_gda : decodeTableWord 48 0b01110_0000000000000000000000000000000000000000000 =
    some .gda := by decide
theorem test_decode_gpgn : decodeTableWord 48 0b01111_0000000000000000000000000000000000000000000 =
    some .gpgn := by decide
theorem test_decode_sprio : decodeTableWord 48 0b10000_0000000000000000000000000000000000000000011 =
    some (.sprio 3#3) := by decide
theorem test_decode_sedp : decodeTableWord 48 0b10001_0000000000000000000000000000000000000000001 =
    some (.sedp 1#1) := by decide
theorem test_decode_sdp : decodeTableWord 48 0b10010_0000000000000000000000000000000000000000001 =
    some (.sdp 1#1) := by decide
theorem test_decode_spf : decodeTableWord 48 0b10011_0000000000000000000000000000000000011101111 =
    some (.spf 0xEF#8) := by decide
theorem test_decode_sps : decodeTableWord 48 0b10100_0000000000000000000000000000000000000110100 =
    some (.sps 0x34#8) := by decide
theorem test_decode_ssa : decodeTableWord 48 0b10101_0000000000000000000000000000000000010000000 =
    some (.ssa 0x80#8) := by decide
theorem test_decode_sda : decodeTableWord 48 0b10110_0000000000000000000000000000000000000100010 =
    some (.sda 0x22#8) := by decide
theorem test_decode_spgn : decodeTableWord 48 0b10111_0000000000000000000111111001111111011110001 =
    some (.spgn 0xFCFEF1#24) := by decide
theorem test_decode_gtype : decodeTableWord 48 0b11000_0000000000000000000000000000000000000000000 =
    some .gtype := by decide
theorem test_decode_gfmt : decodeTableWord 48 0b11001_0000000000000000000000000000000000000000000 =
    some .gfmt := by decide
theorem test_decode_tohex : decodeTableWord 48 0b11010_0000000000000000000000000000000000000000000 =
    some .tohex := by decide
theorem test_decode_tobin : decodeTableWord 48 0b11011_0000000000000000000000000000000000000000000 =
    some .tobin := by decide
theorem test_decode_dump : decodeTableWord 48 0b11100_0000000000000000000000000000000000000000000 =
    some .dump := by decide
theorem test_decode_eq : decodeTableWord 48 0b11101_0000000000000111000111011101111111100000000 =
    some (.eq .ext 0x18EEFF00#29) := by decide

/-- T2's decoder note: with priority 0 the word still has `op` 0x03. -/
theorem test_decode_newx_priority_zero :
    decodeTableWord 48 0x1800F0040099 = some (.newx 0#3 0xF004#24 0#8 0x99#8) := by decide

/-- T8's illegal words, by the reason R75 gives. -/
theorem test_decode_reserved_op :
    [0x000000000000#48, 0xFFFFFFFFFFFF#48, 0x280000000000#48, 0x300000000000#48, 0x380000000000#48,
      0xF00000000000#48].all (fun w => decode w == .error .reservedOp) = true := by decide
theorem test_decode_reserved_bit :
    [0x400000000001#48, 0x800000000008#48, 0x081800000000#48].all
      (fun w => decode w == .error .reservedBit) = true := by decide
theorem test_decode_hex_operand : decode 0x080300001000#48 = .error .hexOperand := by decide

/-- T8: eight or more digits put no bound on `val`. -/
theorem test_decode_hex_operand_unbounded :
    decode 0x0808FFFFFFFF#48 = .ok (.ldhex 8#4 0xFFFFFFFF#32) ∧
    decode 0x080F12345678#48 = .ok (.ldhex 15#4 0x12345678#32) := by decide

/-- Words of T2 and T7, encoded. -/
theorem test_encode_vectors :
    encode (.ldraw .ext 0x123#32) = 0x100100000123#48 ∧
    encode (.newx 6#3 0xEC00#24 0x2A#8 0xFF#8) = 0x1E00EC002AFF#48 ∧
    encode (.news 7#3 0xFF#8) = 0x2000000007FF#48 ∧ encode (.spgn 0x1EE00#24) = 0xB8000001EE00#48 ∧
    encode (.eq .ext 0x321#29) = 0xE80020000321#48 := by decide

/-! ### Constructors (T1, T2) -/

theorem test_ldhex_selects_by_digits :
    result (exec (.ldhex 3#4 0x7FF#32) empty) = stdAnd 0x7FF#11 (okDone false) ∧
    result (exec (.ldhex 5#4 0x7FF#32) empty) = extAnd 0x7FF#29 (okDone false) ∧
    result (exec (.ldhex 4#4 0xFFF#32) empty) = extAnd 0xFFF#29 (okDone false) := by decide
theorem test_ldhex_errors :
    result (exec (.ldhex 8#4 0x20000000#32) (onExt 0x18EEFF00#29)) = extAnd 0x18EEFF00#29 (errorIs .outOfRange) ∧
    result (exec (.ldhex 9#4 0xFFFFFFFF#32) empty) = noneAnd (errorIs .malformedHex) ∧
    result (exec (.ldhex 0#4 0#32) empty) = noneAnd (errorIs .malformedHex) := by decide
theorem test_ldraw_flag_decides :
    result (exec (.ldraw .ext 0x123#32) empty) = extAnd 0x123#29 (okDone false) ∧
    result (exec (.ldraw .std 0x123#32) empty) = stdAnd 0x123#11 (okDone false) := by decide
theorem test_ldraw_out_of_range :
    result (exec (.ldraw .std 0x800#32) empty) = noneAnd (errorIs .outOfRange) ∧
    result (exec (.ldraw .ext 0x20000000#32) (onExt 0x123#29)) = extAnd 0x123#29 (errorIs .outOfRange) := by decide
theorem test_newx_writes_da_under_type1_only :
    result (exec (.newx 7#3 0x3EF00#24 0x80#8 0x55#8) empty) = extAnd 0x1FEF5580#29 (okDone false) ∧
    result (exec (.newx 0#3 0xF004#24 0#8 0x99#8) empty) = extAnd 0x00F00400#29 (okDone false) := by decide
theorem test_newx_rejects_pgn :
    result (exec (.newx 6#3 0xEA34#24 0xF9#8 0#8) (partially (onExt 0x18EEFF00#29))) =
      extAnd 0x18EEFF00#29 (errorIs .invalidPgn) ∧
    result (exec (.newx 3#3 0x40000#24 0#8 0#8) empty) = noneAnd (errorIs .invalidPgn) := by decide
theorem test_news : result (exec (.news 3#3 0x21#8) (onExt 0#29)) = stdAnd 0x321#11 (okDone false) := by decide

/-! ### Field reads (T3) -/

theorem test_gfmt :
    result (exec .gfmt (onStd 0x7FF#11)) = stdAnd 0x7FF#11 (okNumber 0) ∧
    result (exec .gfmt (onExt 0x18EEFF00#29)) = extAnd 0x18EEFF00#29 (okNumber 1) := by decide
theorem test_gprio :
    result (exec .gprio (onStd 0x321#11)) = stdAnd 0x321#11 (okNumber 3) ∧
    result (exec .gprio (onExt 0x1CEBFF2A#29)) = extAnd 0x1CEBFF2A#29 (okNumber 7) := by decide
theorem test_gedp : result (exec .gedp (onExt 0x1AEEFF00#29)) = extAnd 0x1AEEFF00#29 (okNumber 1) := by decide
theorem test_gdp : result (exec .gdp (onExt 0x1AEEFF00#29)) = extAnd 0x1AEEFF00#29 (okNumber 0) := by decide
theorem test_gpf : result (exec .gpf (onExt 0x18FECA03#29)) = extAnd 0x18FECA03#29 (okNumber 254) := by decide
theorem test_gpf_standard : result (exec .gpf (onStd 0x7FF#11)) = stdAnd 0x7FF#11 (errorIs .wrongFormat) := by decide
theorem test_gps : result (exec .gps (onExt 0x18FECA03#29)) = extAnd 0x18FECA03#29 (okNumber 202) := by decide
theorem test_gsa :
    result (exec .gsa (onStd 0x321#11)) = stdAnd 0x321#11 (okNumber 33) ∧
    result (exec .gsa (onExt 0x1CEBFF2A#29)) = extAnd 0x1CEBFF2A#29 (okNumber 42) := by decide
theorem test_gtype_boundary :
    result (exec .gtype (onExt 0x00EF0000#29)) = extAnd 0x00EF0000#29 (okNumber 1) ∧
    result (exec .gtype (onExt 0x00F00000#29)) = extAnd 0x00F00000#29 (okNumber 2) := by decide
theorem test_gtype_pf_zero : result (exec .gtype (onExt 0x7FF#29)) = extAnd 0x7FF#29 (okNumber 1) := by decide
theorem test_gda :
    result (exec .gda (onExt 0x1FEF5580#29)) = extAnd 0x1FEF5580#29 (okNumber 85) ∧
    result (exec .gda (onExt 0x18FEF100#29)) = extAnd 0x18FEF100#29 (okNumber 255) := by decide
theorem test_gpgn :
    result (exec .gpgn (onExt 0x1FEF5580#29)) = extAnd 0x1FEF5580#29 (okNumber 257792) ∧
    result (exec .gpgn (onExt 0x18FECA03#29)) = extAnd 0x18FECA03#29 (okNumber 65226) := by decide

/-! ### Field writes (T4, T5, T6) -/

theorem test_sprio :
    result (exec (.sprio 3#3) (onExt 0x18EEFF00#29)) = extAnd 0x0CEEFF00#29 (okDone false) ∧
    result (exec (.sprio 0#3) (onStd 0x7FF#11)) = stdAnd 0x0FF#11 (okDone false) := by decide
theorem test_sedp : result (exec (.sedp 1#1) (onExt 0x18EEFF00#29)) = extAnd 0x1AEEFF00#29 (okDone false) := by decide
theorem test_sdp : result (exec (.sdp 1#1) (onExt 0x18EEFF00#29)) = extAnd 0x19EEFF00#29 (okDone false) := by decide
theorem test_spf :
    result (exec (.spf 0xF0#8) (onExt 0x18EEFF00#29)) = extAnd 0x18F0FF00#29 (okDone false) ∧
    result (exec (.spf 0#8) (onExt 0x18FEF100#29)) = extAnd 0x1800F100#29 (okDone false) := by decide
theorem test_sps : result (exec (.sps 0x22#8) (onExt 0x18FEF100#29)) = extAnd 0x18FE2200#29 (okDone false) := by decide
theorem test_ssa :
    result (exec (.ssa 0x80#8) (onExt 0x18EEFF00#29)) = extAnd 0x18EEFF80#29 (okDone false) ∧
    result (exec (.ssa 0x12#8) (onStd 0x7FF#11)) = stdAnd 0x712#11 (okDone false) := by decide
theorem test_sda_diagnostic_under_type2 :
    result (exec (.sda 0x34#8) (onExt 0x18EEFF00#29)) = extAnd 0x18EE3400#29 (okDone false) ∧
    result (exec (.sda 0x22#8) (onExt 0x18FEF100#29)) = extAnd 0x18FE2200#29 (okDone true) ∧
    result (exec (.sda 0xF1#8) (onExt 0x18FEF100#29)) = extAnd 0x18FEF100#29 (okDone true) := by decide
theorem test_sda_standard :
    result (exec (.sda 1#8) (onStd 0x7FF#11)) = stdAnd 0x7FF#11 (errorIs .wrongFormat) := by decide
theorem test_spgn_accepted :
    result (exec (.spgn 0x3FFFF#24) (onExt 0x18FEF100#29)) = extAnd 0x1BFFFF00#29 (okDone false) ∧
    result (exec (.spgn 0#24) (onExt 0x1CFFFFFF#29)) = extAnd 0x1C0000FF#29 (okDone false) := by decide
theorem test_spgn_rejected :
    result (exec (.spgn 0xEE34#24) (onExt 0x18FEF100#29)) = extAnd 0x18FEF100#29 (errorIs .invalidPgn) ∧
    result (exec (.spgn 0xEE34#24) (partially (onExt 0x18FEF100#29))) = extAnd 0x18EE3400#29 (errorIs .invalidPgn) ∧
    result (exec (.spgn 0xFCFEF1#24) (partially (onExt 0x18EEFF00#29))) =
      extAnd 0x18FEF100#29 (errorIs .invalidPgn) := by decide

/-! ### Serialisation and comparison (T7) -/

theorem test_tohex :
    payloadOf .tohex (onStd 0x321#11) = some (.text "0321".toList) ∧
    payloadOf .tohex (onExt 0x18EEFF00#29) = some (.text "18EEFF00".toList) := by decide
theorem test_tohex_carrier :
    result (exec .tohex (onStd 0x7FF#11)) = stdAnd 0x7FF#11 (okString 4 0x7FF) ∧
    result (exec .tohex (onExt 0x7FF#29)) = extAnd 0x7FF#29 (okString 8 0x7FF) := by decide
theorem test_tobin :
    payloadOf .tobin (onStd 0x321#11) = some (.text "01100100001".toList) ∧
    payloadOf .tobin (onExt 0x18EEFF00#29) = some (.text "11000111011101111111100000000".toList) := by decide
theorem test_dump_carrier :
    result (exec .dump (onExt 0x0CF00400#29)) = extAnd 0x0CF00400#29 (okNumber 0xC01E009FE0009E030CF00400) ∧
    result (exec .dump (onStd 0x321#11)) = stdAnd 0x321#11 (okNumber 0x000000000420000300000321) := by decide
theorem test_dump_map :
    payloadOf .dump (onExt 0x18FEF100#29) = some (.fields
      [(.canId, .text "18FEF100".toList), (.priority, .number 3 6#3), (.edp, .number 1 0#1), (.dp, .number 1 0#1),
       (.pf, .number 8 254#8), (.ps, .number 8 241#8), (.sa, .number 8 0#8), (.da, .number 8 255#8),
       (.pgn, .number 24 65265#24), (.pduType, .number 2 2#2), (.format, .format .ext)]) := by decide
theorem test_dump_key_spellings :
    (dumpMap (.ext 0#29)).map (fun p => p.1.name) =
      ["can_id", "priority", "edp", "dp", "pf", "ps", "sa", "da", "pgn", "pdu_type", "format"] := by decide
theorem test_eq_compares_format_too :
    result (exec (.eq .std 0x321#29) (onStd 0x321#11)) = stdAnd 0x321#11 (okNumber 1) ∧
    result (exec (.eq .ext 0x321#29) (onStd 0x321#11)) = stdAnd 0x321#11 (okNumber 0) ∧
    result (exec (.eq .ext 0x18EEFF01#29) (onExt 0x18EEFF00#29)) = extAnd 0x18EEFF00#29 (okNumber 0) := by decide
theorem test_eq_errors :
    result (exec (.eq .std 0x800#29) (onStd 0x321#11)) = stdAnd 0x321#11 (errorIs .outOfRange) ∧
    result (exec (.eq .std 0x800#29) empty) = noneAnd (errorIs .noIdentifier) := by decide

/-! ### Text and assembler (T1, S10, R82) -/

theorem test_hexCmd_texts :
    hexCmd "0x7FF".toList = (3#4, 0x7FF#32) ∧ hexCmd "18eeff00".toList = (8#4, 0x18EEFF00#32) ∧
    hexCmd "123456789".toList = (9#4, 0#32) ∧ hexCmd "0x".toList = (0#4, 0#32) ∧ hexCmd "0X12".toList = (0#4, 0#32) ∧
    hexCmd " 7FF".toList = (0#4, 0#32) ∧ hexCmd "0x0x1".toList = (0#4, 0#32) := by decide
theorem test_hexCmd_counts_up_to_15 :
    hexCmd "1234567890ABCDEF1".toList = (15#4, 0#32) := by decide
theorem test_assemble_vectors :
    assembleWords "LDHEX \"18EEFF00\"" = some [0x080818EEFF00#48] ∧
    assembleWords "NEWX prio=7, pgn=0x3EF00, sa=0x80, da=0x55" = some [0x1F03EF008055#48] ∧
    assembleWords "SDA 0x22" = some [0xB00000000022#48] ∧ assembleWords "set_pgn 0xFEF1" = some [0xB8000000FEF1#48] ∧
    assembleWords "EQ std, 0x321" = some [0xE80000000321#48] := by decide

/-! ### Steps (T8, R210, log entries 3 and 5) -/

theorem test_step_fetched_word :
    result (step (State.reset.withFetchWord 48 0x080818EEFF00)) = extAnd 0x18EEFF00#29 (okDone false) := by decide
theorem test_step_illegal_before_no_identifier :
    result (step (State.reset.withFetchWord 48 0x400000000001)) = noneAnd (errorIs .illegalCmd) := by decide
theorem test_step_reset : result (step (presented .rst (onExt 0x18EEFF00#29))) = some (none, none) := by decide
theorem test_policy_levels : policyOfLevel 0#1 = .rollback ∧ policyOfLevel 1#1 = .keepPartial := by decide
theorem test_status_codes :
    [Status.ok, .outOfRange, .wrongFormat, .invalidPgn, .malformedHex, .noIdentifier, .illegalCmd].map Status.code =
      [0#3, 1#3, 2#3, 3#3, 4#3, 5#3, 6#3] := by decide

/-! ### Witnesses: concrete states and operands that meet a statement's hypotheses, clause by clause -/

theorem witness_DecodeOfEncodeIsTheCommand :
    (Instr.ldhex 7#4 0x0FFFFFFF#32).wf = true ∧ (Instr.ldhex 0#4 0xFFFFFFFF#32).wf = true ∧
    (Instr.eq .std 0x1FFFFFFF#29).wf = true := by decide

theorem witness_EncodeOfDecodeIsTheWord : decode 0x0807_0FFFFFFF#48 = .ok (.ldhex 7#4 0x0FFFFFFF#32) := by decide

/-- The second word meets the LDHEX row and the exclusion. -/
theorem witness_OpcodeRowsDecideEveryWord :
    (⟨"LDHEX", 0xFFF000000000#48, 0x080000000000#48⟩ ∈ opcodeRows) ∧
    OpcodeRow.matchesWord ⟨"LDHEX", 0xFFF000000000#48, 0x080000000000#48⟩ 0x080300000FFF#48 = true ∧
    (decode 0x080300000FFF#48 = .ok (.ldhex 3#4 0xFFF#32) ∧ (Instr.ldhex 3#4 0xFFF#32).mnemonic = "LDHEX") ∧
    OpcodeRow.matchesWord ⟨"LDHEX", 0xFFF000000000#48, 0x080000000000#48⟩ 0x080300001000#48 = true ∧
    16 ^ ((0x080300001000#48).toNat / 2 ^ 32 % 2 ^ 4) ≤ (0x080300001000#48).toNat % 2 ^ 32 := by decide

theorem witness_StepRunsTheDecodedCommand :
    (presented (.command 0x780000000000#48) (onExt 0x18EEFF00#29)).input = .command 0x780000000000#48 :: [] ∧
    decode 0x780000000000#48 = .ok .gpgn := by decide

theorem witness_IllegalWordIsAnsweredIllegalCmd :
    (presented (.command 0x400000000001#48) (onExt 0x18EEFF00#29)).input = .command 0x400000000001#48 :: [] ∧
    ∀ i, decode 0x400000000001#48 ≠ .ok i := by
  refine ⟨by decide, fun i h => ?_⟩
  rw [show decode 0x400000000001#48 = .error .reservedBit by decide] at h
  exact nomatch h

theorem witness_ResetLeavesNoIdentifier : (presented .rst (onExt 0x18EEFF00#29)).input = .rst :: [] := by decide

theorem witness_EveryPresentedCommandGetsOneResponse :
    1 ≤ (presented (.command 0x780000000000#48) (onExt 0x18EEFF00#29)).input.length := by decide

theorem witness_LdhexConstructsFromHexText :
    ((Instr.ldhex 0#4 0xFFFFFFFF#32).wf = true ∧ (0#4).toNat = 0) ∧
    ((Instr.ldhex 9#4 0xFFFFFFFF#32).wf = true ∧ 8 < (9#4).toNat) ∧
    ((Instr.ldhex 8#4 0x20000000#32).wf = true ∧ 1 ≤ (8#4).toNat ∧ (8#4).toNat ≤ 8 ∧
      0x1FFFFFFF < (0x20000000#32).toNat) ∧
    ((Instr.ldhex 4#4 0x7FF#32).wf = true ∧ 1 ≤ (4#4).toNat ∧ (4#4).toNat ≤ 4 ∧ (0x7FF#32).toNat ≤ 0x7FF) ∧
    ((Instr.ldhex 5#4 0x7FF#32).wf = true ∧ 1 ≤ (5#4).toNat ∧ (5#4).toNat ≤ 8 ∧ (0x7FF#32).toNat ≤ 0x1FFFFFFF ∧
      4 < (5#4).toNat) ∧
    ((Instr.ldhex 3#4 0x800#32).wf = true ∧ 1 ≤ (3#4).toNat ∧ (3#4).toNat ≤ 8 ∧ (0x800#32).toNat ≤ 0x1FFFFFFF ∧
      0x7FF < (0x800#32).toNat) := by decide

theorem witness_LdrawConstructsFromRawNumber :
    0x7FF < (0x800#32).toNat ∧ (0x7FF#32).toNat ≤ 0x7FF ∧ 0x1FFFFFFF < (0x20000000#32).toNat ∧
    (0x1FFFFFFF#32).toNat ≤ 0x1FFFFFFF := by decide

theorem witness_NewxConstructsFromFields :
    PgnAcceptable (0x3FFFF#24).toNat ∧ PgnAcceptable (0xEF00#24).toNat ∧ ¬ PgnAcceptable (0xEF01#24).toNat ∧
    ¬ PgnAcceptable (0x40000#24).toNat := by decide

theorem witness_ConstructorResultIgnoresTheOldState : isConstructor (.newx 6#3 0xEA34#24 0xF9#8 0#8) = true := by decide

theorem witness_FormatPriorityAndSourceReads :
    empty.slot = none ∧ (onStd 0x7FF#11).slot = some (.std 0x7FF#11) ∧
    (onExt 0x1FFFFFFF#29).slot = some (.ext 0x1FFFFFFF#29) := by decide
theorem witness_ExtendedFieldReads :
    empty.slot = none ∧ (onStd 0x7FF#11).slot = some (.std 0x7FF#11) ∧
    (onExt 0x1AEEFF00#29).slot = some (.ext 0x1AEEFF00#29) := by decide
theorem witness_PduTypeRead :
    empty.slot = none ∧ (onStd 0#11).slot = some (.std 0#11) ∧
    (onExt 0x00EF0000#29).slot = some (.ext 0x00EF0000#29) ∧ (0x00EF0000#29).toNat / 2 ^ 16 % 2 ^ 8 = 239 ∧
    (onExt 0x00F00000#29).slot = some (.ext 0x00F00000#29) ∧ (0x00F00000#29).toNat / 2 ^ 16 % 2 ^ 8 = 240 := by decide
theorem witness_DestinationAddressRead :
    empty.slot = none ∧ (onStd 0x700#11).slot = some (.std 0x700#11) ∧
    (onExt 0x00EF3400#29).slot = some (.ext 0x00EF3400#29) ∧ (0x00EF3400#29).toNat / 2 ^ 16 % 2 ^ 8 = 239 ∧
    (onExt 0x00F03400#29).slot = some (.ext 0x00F03400#29) ∧ (0x00F03400#29).toNat / 2 ^ 16 % 2 ^ 8 = 240 := by decide
theorem witness_PgnRead :
    empty.slot = none ∧ (onStd 0x7FF#11).slot = some (.std 0x7FF#11) ∧
    (onExt 0x03EFFF00#29).slot = some (.ext 0x03EFFF00#29) ∧ (0x03EFFF00#29).toNat / 2 ^ 16 % 2 ^ 8 = 239 ∧
    (onExt 0x03F0FF00#29).slot = some (.ext 0x03F0FF00#29) ∧ (0x03F0FF00#29).toNat / 2 ^ 16 % 2 ^ 8 = 240 := by decide
theorem witness_ReadsWriteNothing : isRead .dump = true ∧ isRead (.eq .std 0x800#29) = true := by decide
theorem witness_PriorityAndSourceWrites :
    empty.slot = none ∧ (onStd 0x7FF#11).slot = some (.std 0x7FF#11) ∧
    (onExt 0x18EEFF00#29).slot = some (.ext 0x18EEFF00#29) := by decide
theorem witness_ExtendedFieldWrites :
    empty.slot = none ∧ (onStd 0x7FF#11).slot = some (.std 0x7FF#11) ∧
    (onExt 0x18FEF100#29).slot = some (.ext 0x18FEF100#29) := by decide
theorem witness_DestinationAddressWrite :
    empty.slot = none ∧ (onStd 0x7FF#11).slot = some (.std 0x7FF#11) ∧
    (onExt 0x00EF0000#29).slot = some (.ext 0x00EF0000#29) ∧ ¬ 240 ≤ (0x00EF0000#29).toNat / 2 ^ 16 % 2 ^ 8 ∧
    (onExt 0x00F00000#29).slot = some (.ext 0x00F00000#29) ∧ 240 ≤ (0x00F00000#29).toNat / 2 ^ 16 % 2 ^ 8 := by decide
theorem witness_PgnWrite :
    empty.slot = none ∧ (onStd 0x7FF#11).slot = some (.std 0x7FF#11) ∧
    ((onExt 0x18FEF100#29).slot = some (.ext 0x18FEF100#29) ∧ PgnAcceptable (0xF0FF#24).toNat) ∧
    (¬ PgnAcceptable (0xEFFF#24).toNat ∧ (onExt 0x18FEF100#29).policy = .rollback) ∧
    (¬ PgnAcceptable (0x40000#24).toNat ∧ (partially (onExt 0x18FEF100#29)).policy = .keepPartial) := by decide
theorem witness_FieldWritesKeepTheOtherFields :
    (onStd 0x5A5#11).slot = some (.std 0x5A5#11) ∧ (onExt 0x15AA5AA5#29).slot = some (.ext 0x15AA5AA5#29) ∧
    PgnAcceptable (0x3F0FF#24).toNat := by decide

/-- T4 and T5, one row per clause. -/
theorem witness_ComputedValuesFollowTheWrites :
    (onExt 0x18EEFF00#29).slot = some (.ext 0x18EEFF00#29) ∧ (onExt 0x18FEF100#29).slot = some (.ext 0x18FEF100#29) ∧
    exec (.sprio 3#3) (onExt 0x18EEFF00#29) = .next (after (onExt 0x18EEFF00#29) (some (.ext 0x0CEEFF00#29)) (okDone false)) ∧
    exec (.ssa 0x80#8) (onExt 0x18EEFF00#29) = .next (after (onExt 0x18EEFF00#29) (some (.ext 0x18EEFF80#29)) (okDone false)) ∧
    exec (.sedp 1#1) (onExt 0x18EEFF00#29) = .next (after (onExt 0x18EEFF00#29) (some (.ext 0x1AEEFF00#29)) (okDone false)) ∧
    exec (.sdp 1#1) (onExt 0x18EEFF00#29) = .next (after (onExt 0x18EEFF00#29) (some (.ext 0x19EEFF00#29)) (okDone false)) ∧
    exec (.spf 0xF0#8) (onExt 0x18EEFF00#29) = .next (after (onExt 0x18EEFF00#29) (some (.ext 0x18F0FF00#29)) (okDone false)) ∧
    exec (.sps 0x22#8) (onExt 0x18FEF100#29) = .next (after (onExt 0x18FEF100#29) (some (.ext 0x18FE2200#29)) (okDone false)) ∧
    exec (.sda 0x22#8) (onExt 0x18FEF100#29) = .next (after (onExt 0x18FEF100#29) (some (.ext 0x18FE2200#29)) (okDone true)) ∧
    exec (.spgn 0xEE00#24) (onExt 0x18FEF100#29) = .next (after (onExt 0x18FEF100#29) (some (.ext 0x18EE0000#29)) (okDone false)) :=
  ⟨rfl, rfl, rfl, rfl, rfl, rfl, rfl, rfl, rfl, rfl⟩

theorem witness_PgnWriteReadsBack :
    (onExt 0x18EEFF00#29).slot = some (.ext 0x18EEFF00#29) ∧ PgnAcceptable (0x3FFFF#24).toNat ∧
    PgnAcceptable (0xEF00#24).toNat ∧ ¬ PgnAcceptable (0xEF01#24).toNat := by decide
theorem witness_PgnIsRejectedExactlyWhenItCannotRoundTrip :
    (onExt 0x0C000000#29).slot = some (.ext 0x0C000000#29) ∧ empty.slot = none ∧ (0x40000#24).toNat / 2 ^ 18 ≠ 0 ∧
    ((0xEF01#24).toNat / 2 ^ 8 % 2 ^ 8 < 240 ∧ (0xEF01#24).toNat % 2 ^ 8 ≠ 0) := by decide
theorem witness_PgnThenDestinationIsTheSafeOrder :
    (onExt 0x18FEF100#29).slot = some (.ext 0x18FEF100#29) ∧ PgnAcceptable (0xEF00#24).toNat ∧
    (0xEF00#24).toNat / 2 ^ 8 % 2 ^ 8 < 240 := by decide
theorem witness_DestinationWriteUnderType2ChangesThePgn :
    (onExt 0x18F0F100#29).slot = some (.ext 0x18F0F100#29) ∧ 240 ≤ (0x18F0F100#29).toNat / 2 ^ 16 % 2 ^ 8 := by decide

theorem witness_TohexRendersThePaddedWord :
    empty.slot = none ∧ (onStd 0x7FF#11).slot = some (.std 0x7FF#11) ∧
    (onExt 0x7FF#29).slot = some (.ext 0x7FF#29) := by decide
theorem witness_TobinRendersTheRawBits :
    empty.slot = none ∧ (onStd 1#11).slot = some (.std 1#11) ∧
    (onExt 0x1FFFFFFF#29).slot = some (.ext 0x1FFFFFFF#29) := by decide
theorem witness_DumpPacksTheFieldMap :
    empty.slot = none ∧ (onStd 0#11).slot = some (.std 0#11) ∧
    (onExt 0x1FFFFFFF#29).slot = some (.ext 0x1FFFFFFF#29) := by decide
theorem witness_EqComparesTheHexTexts :
    empty.slot = none ∧ (onStd 0x321#11).slot = some (.std 0x321#11) ∧ 0x7FF < (0x800#29).toNat ∧
    (0x7FF#29).toNat ≤ 0x7FF ∧ (onExt 0x7FF#29).slot = some (.ext 0x7FF#29) := by decide
theorem witness_TohexAfterLdhexRendersThePaddedText :
    (hexParse "0x07ff".toList = some (4, 0x7FF) ∧ 0x7FF ≤ 0x1FFFFFFF) ∧
    (hexParse "1FFFFFFF".toList = some (8, 0x1FFFFFFF) ∧ 0x1FFFFFFF ≤ 0x1FFFFFFF) := by decide

theorem witness_NoIdentifierBeforeConstruction :
    isConstructor (.spgn 0xFFFFFF#24) = false ∧ empty.slot = none := by decide
theorem witness_WrongFormatExactlyOnStandard :
    (isExtendedOnly .gda = true ∧ (onStd 0x7FF#11).slot = some (.std 0x7FF#11)) ∧
    exec (.spgn 0xFFFFFF#24) (onStd 0x7FF#11) =
      .next (after (onStd 0x7FF#11) (some (.std 0x7FF#11)) (errorIs .wrongFormat)) ∧
    (errorIs .wrongFormat).status = .wrongFormat :=
  ⟨by decide, rfl, rfl⟩
theorem witness_StatusIsTheFirstErrorThatApplies :
    (∀ i, decode 0x080300001000#48 ≠ .ok i) ∧ (Instr.ldhex 3#4 0xFFF#32).wf = true := by
  refine ⟨fun i h => ?_, by decide⟩
  rw [show decode 0x080300001000#48 = .error .hexOperand by decide] at h
  exact nomatch h
theorem witness_CommandByStatusMatrix :
    mayEndIn (.newx 0#3 0#24 0#8 0#8) .invalidPgn = true ∧ mayEndIn (.ldhex 0#4 0#32) .outOfRange = true ∧
    mayEndIn .gda .wrongFormat = true ∧ mayEndIn .gfmt .noIdentifier = true := by decide

/-- The slot and the response of a rejected write of T6. -/
theorem witness_OnlyARejectedPgnWriteCanChangeTheSlot :
    exec (.spgn 0xEE34#24) (partially (onExt 0x18FEF100#29)) =
      .next (after (partially (onExt 0x18FEF100#29)) (some (.ext 0x18EE3400#29)) (errorIs .invalidPgn)) ∧
    (errorIs .invalidPgn).status ≠ .ok ∧
    some (Ident.ext 0x18EE3400#29) ≠ (partially (onExt 0x18FEF100#29)).slot :=
  ⟨rfl, by decide, by decide⟩
theorem witness_RejectedPgnWriteUnderPartial :
    (partially (onExt 0x18FEF100#29)).slot = some (.ext 0x18FEF100#29) ∧
    (partially (onExt 0x18FEF100#29)).policy = .keepPartial ∧ ¬ PgnAcceptable (0xEE34#24).toNat := by decide

theorem witness_OnlyConstructorsAndResetWriteTheFormat :
    step (presented .rst (onStd 0x7FF#11)) = .next empty ∧ empty.fmt ≠ (presented .rst (onStd 0x7FF#11)).fmt :=
  ⟨rfl, by decide⟩
theorem witness_NothingIsLatched :
    (onExt 0#29).slot = (after (onExt 0x1FFFFFFF#29) (some (.ext 0#29)) (errorIs .invalidPgn)).slot ∧
    (onExt 0#29).policy = (after (onExt 0x1FFFFFFF#29) (some (.ext 0#29)) (errorIs .invalidPgn)).policy := by decide
/-- A block that has answered before and is given TOHEX. -/
def answeredBefore : State :=
  { presented (.command 0xD00000000000#48) (onStd 0x7FF#11) with output := [okString 8 0x1FFFFFFF, okDone true] }
theorem witness_EveryStepKeepsTheResponseForm :
    Inv answeredBefore ∧
    step answeredBefore = .next
      { onStd 0x7FF#11 with output := [okString 8 0x1FFFFFFF, okDone true, okString 4 0x7FF] } :=
  ⟨by decide, rfl⟩
theorem witness_RegisterFitsTheFormat :
    (onStd 0x7FF#11).id = some 0x7FF#29 ∧ (onStd 0x7FF#11).fmt = some .std ∧
    (onExt 0x1FFFFFFF#29).id = some 0x1FFFFFFF#29 := by decide
theorem witness_LawsOfTheDerivedValues :
    pduType (xPf 0x00F00000#29) = .type2 ∧ pduType (xPf 0x00EFFF00#29) = .type1 := by decide
theorem witness_AssembledCommandsAreLegal :
    assemble "LDHEX \"12G\"".toList = some [.ldhex 0#4 0#32] ∧
    assemble "RENDER std, 0x800".toList = some [.ldraw .std 0x800#32, .tohex] := by decide

/-- A marked lower-case text and its digits, and one digit string per clause: accepted, too long, no digit string. -/
theorem witness_HexTextIsTokenisedByItsDigits :
    digitVal 'b' = some 11 ∧
    "7ff".toList = (if "0x7ff".toList[0]? = some '0' ∧ "0x7ff".toList[1]? = some 'x' then "0x7ff".toList.drop 2
      else "0x7ff".toList) ∧
    ("7ff".toList ≠ [] ∧ (∀ c ∈ "7ff".toList, digitVal c ≠ none) ∧ "7ff".toList.length ≤ 8) ∧
    ((∀ c ∈ List.replicate 9 '0', digitVal c ≠ none) ∧ 8 < (List.replicate 9 '0').length) ∧
    ∃ c ∈ "12G".toList, digitVal c = none := by
  refine ⟨by decide, by decide, ⟨by decide, fun c h => ?_, by decide⟩, ⟨fun c h => ?_, by decide⟩, 'G', by decide,
    by decide⟩
  · rcases (show c = '7' ∨ c = 'f' by simpa using h) with rfl | rfl <;> decide
  · rw [List.eq_of_mem_replicate h]
    decide

theorem witness_PortsCarryTheirCodes :
    (onExt 0x18FEF100#29).slot = some (.ext 0x18FEF100#29) ∧ ¬ PgnAcceptable (0xEE34#24).toNat ∧
    policyLevel (partially (onExt 0x18FEF100#29)).policy = 1#1 := by decide

end Sys2Proof.Tests
end

/-! PROOFS. The obligations about steps and the scope of the block (spec/00_scope.md). First the shared facts: what a
presented command and one step can do, and every way a command can end. -/

namespace Sys2Proof.Proofs

open Sys2Proof.Machine Sys2Proof.Safety Sys2Proof.Laws

/-! ### How a command ends -/

/-- Every way the command `i` can end from the state `s`: what the slot holds afterwards and the response. The one error
that changes the slot is SPGN's under PARTIAL (R183). -/
inductive CommandEnds (i : Instr) (s : State) : Option Ident → Response → Prop where
  | failed (k : Status) (hk : k ≠ .ok) : CommandEnds i s s.slot (errorIs k)
  | answered (r : Response) (hr : r.status = .ok) : CommandEnds i s s.slot r
  | wrote (d : Bool) (j : Ident) : CommandEnds i s (some j) (okDone d)
  | rejectedPgn (c : BitVec 29) (hi : isSpgn i = true) (hp : s.policy = .keepPartial) :
      CommandEnds i s (some (.ext c)) (errorIs .invalidPgn)

/-- The outcome is a next state that differs from `s` only as one of the endings of `i` says. -/
def Ends (i : Instr) (s : State) (o : Host.Outcome State Fault Refusal) : Prop :=
  ∃ slot r, o = .next (after s slot r) ∧ CommandEnds i s slot r

section
variable {i : Instr} {s : State}

theorem ends_raise {k : Status} (hk : k ≠ .ok) : Ends i s (raise k s) := ⟨_, _, raise_eq k s, .failed k hk⟩

theorem ends_respond {r : Response} (hr : r.status = .ok) : Ends i s (respond r s) :=
  ⟨_, _, respond_eq r s, .answered r hr⟩

theorem ends_publish {d : Bool} {j : Ident} : Ends i s (publish d j s) := ⟨_, _, publish_eq d j s, .wrote d j⟩

theorem ends_withIdent {k : Ident → Host.Outcome State Fault Refusal} (h : ∀ j, Ends i s (k j)) :
    Ends i s (withIdent s k) := by
  obtain ⟨-, e⟩ | ⟨j, -, e⟩ := withIdent_cases s k
  · exact e ▸ ends_raise (by decide)
  · exact e ▸ h j

theorem ends_withExt {k : BitVec 29 → Host.Outcome State Fault Refusal} (h : ∀ b, Ends i s (k b)) :
    Ends i s (withExt s k) := by
  obtain ⟨-, e⟩ | ⟨-, -, e⟩ | ⟨b, -, e⟩ := withExt_cases s k
  · exact e ▸ ends_raise (by decide)
  · exact e ▸ ends_raise (by decide)
  · exact e ▸ h b

theorem ends_construct {r : Except Status Ident} (h : ∀ k, r = .error k → k ≠ .ok) : Ends i s (construct r s) := by
  cases r with
  | ok j => exact ends_publish
  | error k => exact ends_raise (h k rfl)

/-- A rejected PGN write fails as any command does under ROLLBACK, and leaves its fields under PARTIAL (R148). -/
theorem ends_rejectedPgn {c : BitVec 29} (hi : isSpgn i = true) :
    Ends i s (raise .invalidPgn (afterRejectedPgn c s)) := by
  cases hp : s.policy with
  | rollback =>
    rw [afterRejectedPgn_rollback c hp]
    exact ends_raise (by decide)
  | keepPartial =>
    rw [afterRejectedPgn_keepPartial c hp]
    exact ⟨_, _, raise_eq _ _, .rejectedPgn c hi hp⟩

end

theorem hexOperand_error_ne_ok {ndig : BitVec 4} {val : BitVec 32} {k : Status}
    (h : hexOperand ndig val = .error k) : k ≠ .ok := by
  unfold hexOperand at h
  split at h
  · cases h; decide
  · split at h
    · cases h; decide
    · cases h

theorem rawOperand_error_ne_ok {fmt : Format} {val : BitVec 32} {k : Status}
    (h : rawOperand fmt val = .error k) : k ≠ .ok := by
  unfold rawOperand at h
  split at h
  · cases h; decide
  · cases h

theorem fieldsOperand_error_ne_ok {prio : BitVec 3} {p : BitVec 24} {sa da : BitVec 8} {k : Status}
    (h : fieldsOperand prio p sa da = .error k) : k ≠ .ok := by
  unfold fieldsOperand at h
  dsimp only at h
  split at h
  · cases h; decide
  · split at h <;> cases h

theorem immediateOperand_error_ne_ok {fmt : Format} {val : BitVec 29} {k : Status}
    (h : immediateOperand fmt val = .error k) : k ≠ .ok := by
  cases fmt with
  | ext => cases h
  | std =>
    simp only [immediateOperand] at h
    split at h
    · cases h; decide
    · cases h

/-- Every command on every state ends in one of those ways: it never stops, and it answers once (R12, R193). -/
theorem exec_ends (i : Instr) (s : State) : Ends i s (exec i s) := by
  cases i with
  | ldhex ndig val => exact ends_construct fun _ => hexOperand_error_ne_ok
  | ldraw fmt val => exact ends_construct fun _ => rawOperand_error_ne_ok
  | newx prio p sa da => exact ends_construct fun _ => fieldsOperand_error_ne_ok
  | news prio sa => exact ends_publish
  | gprio => exact ends_withIdent fun _ => ends_respond rfl
  | gsa => exact ends_withIdent fun _ => ends_respond rfl
  | gfmt => exact ends_withIdent fun _ => ends_respond rfl
  | tohex => exact ends_withIdent fun _ => ends_respond rfl
  | tobin => exact ends_withIdent fun _ => ends_respond rfl
  | dump => exact ends_withIdent fun _ => ends_respond rfl
  | gedp => exact ends_withExt fun _ => ends_respond rfl
  | gdp => exact ends_withExt fun _ => ends_respond rfl
  | gpf => exact ends_withExt fun _ => ends_respond rfl
  | gps => exact ends_withExt fun _ => ends_respond rfl
  | gda => exact ends_withExt fun _ => ends_respond rfl
  | gpgn => exact ends_withExt fun _ => ends_respond rfl
  | gtype => exact ends_withExt fun _ => ends_respond rfl
  | sprio v => exact ends_withIdent fun _ => ends_publish
  | ssa v => exact ends_withIdent fun _ => ends_publish
  | sedp v => exact ends_withExt fun _ => ends_publish
  | sdp v => exact ends_withExt fun _ => ends_publish
  | spf v => exact ends_withExt fun _ => ends_publish
  | sps v => exact ends_withExt fun _ => ends_publish
  | sda v => exact ends_withExt fun _ => ends_publish
  | spgn v =>
    refine ends_withExt fun b => ?_
    dsimp only
    split
    · exact ends_rejectedPgn rfl
    · exact ends_publish
  | eq fmt val =>
    refine ends_withIdent fun j => ?_
    split
    · exact ends_raise (immediateOperand_error_ne_ok ‹_›)
    · exact ends_respond rfl

/-- A state after a command tells what the slot holds and what was answered. -/
theorem after_inj {s : State} {slot slot' : Option Ident} {r r' : Response}
    (h : after s slot r = after s slot' r') : slot = slot' ∧ r = r' := by
  simpa [after] using h

/-- A known outcome of a command is one of its endings. -/
theorem commandEnds_of_exec {i : Instr} {s : State} {slot : Option Ident} {r : Response}
    (h : exec i s = .next (after s slot r)) : CommandEnds i s slot r := by
  obtain ⟨slot', r', e, hends⟩ := exec_ends i s
  obtain ⟨rfl, rfl⟩ := after_inj (Host.Outcome.next.inj (h.symm.trans e))
  exact hends

/-- Settles O43: of the endings of a command, only a rejected PGN write under PARTIAL is an error with another slot. -/
theorem onlyARejectedPgnWriteCanChangeTheSlot : Obligations.OnlyARejectedPgnWriteCanChangeTheSlot := by
  intro i s slot r hexec herr hslot
  cases commandEnds_of_exec hexec with
  | failed k hk => exact absurd rfl hslot
  | answered r hr => exact absurd hr herr
  | wrote d j => exact absurd rfl herr
  | rejectedPgn c hi hp => exact ⟨hi, rfl, hp⟩

/-! ### Steps -/

theorem runCommand_of_decode {w : Word} {i : Instr} (h : decode w = .ok i) (s : State) : runCommand w s = exec i s := by
  simp [runCommand, h]

theorem runCommand_of_illegal {w : Word} {e : IllegalWord} (h : decode w = .error e) (s : State) :
    runCommand w s = .next (after s s.slot (errorIs .illegalCmd)) := by
  simp [runCommand, h, takeIllegal, raise_eq]

/-- Settles O5: the step takes the event and runs the word, which is the decoded command. -/
theorem stepRunsTheDecodedCommand : Obligations.StepRunsTheDecodedCommand := by
  intro s w rest i hin hdec
  rw [step_command hin, runCommand_of_decode hdec]

/-- Any word, legal or not, is answered once and the block goes on (R18, R193). -/
theorem runCommand_next (w : Word) (s : State) : ∃ slot r, runCommand w s = .next (after s slot r) := by
  cases h : decode w with
  | error e => exact ⟨_, _, runCommand_of_illegal h s⟩
  | ok i =>
    obtain ⟨slot, r, e, -⟩ := exec_ends i s
    exact ⟨slot, r, (runCommand_of_decode h s).trans e⟩

theorem step_command_next {s : State} {w : Word} {rest : List HostEvent} (h : s.input = .command w :: rest) :
    ∃ slot r, step s = .next (after { s with input := rest } slot r) := by
  rw [step_command h]
  exact runCommand_next w _

/-- Settles O9, by the host's next event: none, `rst`, or a command word. -/
theorem everyStepGoesOn : Obligations.EveryStepGoesOn := by
  intro s
  rcases hin : s.input with _ | ⟨_ | _, rest⟩
  · exact ⟨s, step_idle hin, rfl, hin, rfl⟩
  · obtain ⟨slot, r, e⟩ := step_command_next hin
    exact ⟨_, e, rfl, rfl, r, rfl⟩
  · exact ⟨_, step_rst hin, rfl, rfl, rfl⟩

/-- The event is a presented command word, which is answered; `rst` is not (log entry 6). -/
def isCommand : HostEvent → Bool
  | .command _ => true
  | .rst => false

/-- A step that takes the event `e` appends one answer if `e` is a command word and none if it is `rst`. -/
theorem step_event {s : State} {e : HostEvent} {rest : List HostEvent} (h : s.input = e :: rest) :
    ∃ t answers, step s = .next t ∧ t.input = rest ∧ t.policy = s.policy ∧ t.output = s.output ++ answers ∧
      answers.length = ([e].filter isCommand).length := by
  cases e with
  | command w =>
    obtain ⟨slot, r, e⟩ := step_command_next h
    exact ⟨_, [r], e, rfl, rfl, rfl, rfl⟩
  | rst => exact ⟨_, [], step_rst h, rfl, rfl, (List.append_nil _).symm, rfl⟩

/-- A run is its first step and the run from there. -/
theorem run_succ (M : Host.Core) {s t : M.State} (h : M.step s = .next t) (k : Nat) : M.run (k + 1) s = M.run k t := by
  rw [Host.Core.run, h]

/-- `k` steps answer the command words among the first `k` events, in order (R18). -/
theorem run_answers_each_command (k : Nat) (s : State) (hk : k ≤ s.input.length) :
    ∃ t answers, Sys2Proof.core.run k s = .next t ∧ t.input = s.input.drop k ∧ t.policy = s.policy ∧
      t.output = s.output ++ answers ∧ answers.length = ((s.input.take k).filter isCommand).length := by
  induction k generalizing s with
  | zero => exact ⟨s, [], rfl, rfl, rfl, (List.append_nil _).symm, rfl⟩
  | succ k ih =>
    obtain ⟨e, rest, hin⟩ := List.exists_cons_of_length_pos (Nat.zero_lt_of_lt hk)
    obtain ⟨t, first, hstep, htin, htpol, htout, hfirst⟩ := step_event hin
    obtain ⟨u, later, hrun, huin, hupol, huout, hlater⟩ := ih t (by rw [htin]; simpa [hin] using hk)
    refine ⟨u, first ++ later, (run_succ Sys2Proof.core hstep k).trans hrun, ?_, hupol.trans htpol, ?_, ?_⟩
    · rw [huin, htin, hin, List.drop_succ_cons]
    · rw [huout, htout, List.append_assoc]
    · rw [hin, List.take_succ_cons, ← List.singleton_append, List.filter_append, List.length_append,
        List.length_append, hfirst, hlater, htin]

/-- Settles O8, by induction on the number of steps, each of which answers its own event. -/
theorem everyPresentedCommandGetsOneResponse : Obligations.EveryPresentedCommandGetsOneResponse :=
  fun s k hk => run_answers_each_command k s hk

end Sys2Proof.Proofs

/-! PROOFS. The assembler gives legal commands (30_encoding.md R80): only LDHEX has an operand that no legal word
carries, and HexCmd never makes one (R73, R75). -/

namespace Sys2Proof.Proofs

open Sys2Proof.Machine

/-! ### The operand of LDHEX -/

theorem digitVal_lt {c : Char} {d : Nat} (h : digitVal c = some d) : d < 16 := by
  have h0 : '0'.toNat = 48 := rfl
  have h9 : '9'.toNat = 57 := rfl
  have ha : 'a'.toNat = 97 := rfl
  have hf : 'f'.toNat = 102 := rfl
  have hA : 'A'.toNat = 65 := rfl
  have hF : 'F'.toNat = 70 := rfl
  unfold digitVal at h
  split at h
  · cases h; omega
  · split at h
    · cases h; omega
    · split at h
      · cases h; omega
      · cases h

/-- `n` hexadecimal digits have a value below `16^n`, in the form the fold needs. -/
theorem digitsFold_lt (u : Text) (acc m : Nat) (hacc : acc < m) :
    u.foldl (fun acc c => acc * 16 + (digitVal c).getD 0) acc < m * 16 ^ u.length := by
  induction u generalizing acc m with
  | nil => simpa using hacc
  | cons c u ih =>
    have hd : (digitVal c).getD 0 < 16 := by
      cases h : digitVal c with
      | none => decide
      | some d => exact digitVal_lt h
    rw [List.foldl_cons, List.length_cons, Nat.pow_succ', ← Nat.mul_assoc]
    exact ih _ _ (by omega)

theorem digitsValue_lt (u : Text) : digitsValue 16 u < 16 ^ u.length := by
  simpa [digitsValue] using digitsFold_lt u 0 1 Nat.one_pos

/-- An accepted text has 1 to 8 digits and a value below `16^n` (R67). -/
theorem hexParse_bounds {t : Text} {n v : Nat} (h : hexParse t = some (n, v)) : n ≤ 8 ∧ v < 16 ^ n := by
  unfold hexParse at h
  dsimp only at h
  split at h
  · cases h
  · split at h
    · cases h
    · split at h
      · cases h
      · cases h
        exact ⟨Nat.le_of_not_lt ‹_›, digitsValue_lt _⟩

/-- The operand that HexCmd makes of a text is one that some text has (R73, R75 (c)). -/
theorem ldhexOfText_wf (t : Text) : (ldhexOfText t).wf = true := by
  unfold ldhexOfText hexCmd
  cases h : hexParse t with
  | some p =>
    obtain ⟨n, v⟩ := p
    obtain ⟨hn, hv⟩ := hexParse_bounds h
    have hval : (BitVec.ofNat 32 v).toNat < 16 ^ (BitVec.ofNat 4 n).toNat := by
      rw [BitVec.toNat_ofNat, BitVec.toNat_ofNat, Nat.mod_eq_of_lt (show n < 2 ^ 4 by omega)]
      exact Nat.lt_of_le_of_lt (Nat.mod_le _ _) hv
    simp only [Instr.wf, someTextHas, hval, decide_true, Bool.or_true]
  | none =>
    dsimp only
    split
    · next hlong =>
      have hlen : 8 < (stripHexMark t).length := of_decide_eq_true (Bool.and_eq_true_iff.mp hlong).2
      have hndig : 8 ≤ (BitVec.ofNat 4 (min (stripHexMark t).length 15)).toNat := by
        rw [BitVec.toNat_ofNat]; omega
      simp only [Instr.wf, someTextHas, hndig, decide_true, Bool.or_true, Bool.true_or]
    · rfl

/-! ### The lines -/

/-- What a line stands for, if anything, is legal commands. -/
def AllLegal (r : Option (List Instr)) : Prop := ∀ is, r = some is → ∀ i ∈ is, i.wf = true

theorem allLegal_none : AllLegal none := fun _ h => nomatch h

theorem allLegal_some {is : List Instr} (h : ∀ i ∈ is, i.wf = true) : AllLegal (some is) := fun _ e => by
  cases e; exact h

theorem allLegal_single {i : Instr} (h : i.wf = true) : AllLegal (some [i]) :=
  allLegal_some fun _ hj => List.mem_singleton.mp hj ▸ h

theorem allLegal_map {α : Type} {f : α → List Instr} (h : ∀ a, ∀ i ∈ f a, i.wf = true) (o : Option α) :
    AllLegal (o.map f) := by
  cases o with
  | none => exact allLegal_none
  | some a => exact allLegal_some (h a)

theorem allLegal_ldhex (rest : Text) : AllLegal ((quotedText rest).map fun t => [ldhexOfText t]) :=
  allLegal_map (fun t _ hi => List.mem_singleton.mp hi ▸ ldhexOfText_wf t) _

theorem allLegal_noOperand {i : Instr} (h : i.wf = true) (args : List Text) : AllLegal (noOperand i args) := by
  unfold noOperand
  split
  · exact allLegal_single h
  · exact allLegal_none

theorem allLegal_oneOperand {w : Nat} {mk : BitVec w → Instr} (h : ∀ v, (mk v).wf = true) (args : List Text) :
    AllLegal (oneOperand w mk args) := by
  unfold oneOperand
  split
  · exact allLegal_map (fun v _ hi => List.mem_singleton.mp hi ▸ h v) _
  · exact allLegal_none

theorem allLegal_formatAndNumber {w : Nat} {mk : Format → BitVec w → List Instr}
    (h : ∀ f v, ∀ i ∈ mk f v, i.wf = true) (args : List Text) : AllLegal (formatAndNumber w mk args) := by
  unfold formatAndNumber
  split
  · split
    · exact allLegal_some (h _ _)
    · exact allLegal_none
  · exact allLegal_none

theorem allLegal_newxOperands (args : List Text) : AllLegal (newxOperands args) := by
  unfold newxOperands
  split
  · exact allLegal_none
  · split
    · exact allLegal_none
    · split
      · exact allLegal_none
      · split
        · exact allLegal_single rfl
        · exact allLegal_none

theorem allLegal_newsOperands (args : List Text) : AllLegal (newsOperands args) := by
  unfold newsOperands
  split
  · exact allLegal_none
  · split
    · exact allLegal_single rfl
    · exact allLegal_none

theorem allLegal_assemble (line : Text) : AllLegal (assemble line) := by
  unfold assemble
  dsimp only
  split
  · exact allLegal_ldhex _
  · exact allLegal_formatAndNumber (fun _ _ _ hi => List.mem_singleton.mp hi ▸ rfl) _
  · exact allLegal_newxOperands _
  · exact allLegal_newsOperands _
  iterate 10 exact allLegal_noOperand rfl _
  iterate 8 exact allLegal_oneOperand (fun _ => rfl) _
  iterate 3 exact allLegal_noOperand rfl _
  · exact allLegal_formatAndNumber (fun _ _ _ hi => List.mem_singleton.mp hi ▸ rfl) _
  · exact allLegal_formatAndNumber (fun _ _ i hi => by
      rcases List.mem_pair.mp hi with rfl | rfl <;> rfl) _
  · exact allLegal_none

/-- Settles O54, mnemonic by mnemonic. -/
theorem assembledCommandsAreLegal : Obligations.AssembledCommandsAreLegal := allLegal_assemble

/-- Settles O53: eight fixed lines, each evaluated. -/
theorem defaultsAndRenderAssemble : Obligations.DefaultsAndRenderAssemble := by
  refine ⟨?_, ?_, ?_, ?_, ?_, ?_, ?_, ?_⟩ <;> decide

end Sys2Proof.Proofs

/-! PROOFS. The rejected PGN write as arithmetic (42_field_write.md R148, R149) and the levels of the ports (00_scope.md
R18). -/

namespace Sys2Proof.Proofs

open Sys2Proof.Machine Sys2Proof.Safety Sys2Proof.Laws

/-- Two writes of adjacent fields are one write of both, the first of them above the second. -/
theorem putField_putField_adjacent {n w w' : Nat} (b : BitVec n) (hi lo : Nat) (x : BitVec w') (y : BitVec w)
    (hadj : hi = lo + w) (h : hi + w' ≤ n) : putField (putField b hi x) lo y = putField b lo (x ++ y) := by
  refine BitVec.eq_of_getLsbD_eq fun i _ => ?_
  rw [putField_getLsbD _ _ _ _ (by omega), putField_getLsbD _ _ _ _ h, putField_getLsbD _ _ _ _ (by omega),
    BitVec.getLsbD_append]
  by_cases hy : lo ≤ i ∧ i < lo + w
  · rw [if_pos hy, if_pos (by omega), if_pos (by omega)]
  · rw [if_neg hy]
    by_cases hx : hi ≤ i ∧ i < hi + w'
    · rw [if_pos hx, if_pos (by omega), if_neg (by omega), show i - hi = i - lo - w by omega]
    · rw [if_neg hx, if_neg (by omega)]

/-- Writing the four PGN fields replaces bits 25..8 by the low 18 bits of the value (R62, R64, R148). -/
theorem putPgnParts_ofNat (b : BitVec 29) (v : BitVec 24) :
    putPgnParts b v = BitVec.ofNat 29 (replacedBits b.toNat 8 18 (v.toNat % 2 ^ 18)) := by
  have hfields : ((pgnSplit v).edp ++ (pgnSplit v).dp ++ (pgnSplit v).pf ++ (pgnSplit v).ps).toNat =
      v.toNat % 2 ^ 18 := by
    rw [append_toNat, append_toNat, append_toNat, pgnSplit_edp_toNat, pgnSplit_dp_toNat, pgnSplit_pf_toNat,
      pgnSplit_ps_toNat]
    omega
  simp only [putPgnParts, putXPs, putXPf, putXDp, putXEdp]
  rw [putField_putField_adjacent b 25 24 _ _ rfl (by decide), putField_putField_adjacent b 24 16 _ _ rfl (by decide),
    putField_putField_adjacent b 16 8 _ _ rfl (by decide), putField_ofNat b 8 _ (by decide), hfields]

/-- A written PGN reads back exactly when it is acceptable (R149). -/
theorem pgn_putPgnParts_eq_iff (b : BitVec 29) (v : BitVec 24) : pgn (putPgnParts b v) = v ↔ PgnAcceptable v.toNat := by
  have hv := v.isLt
  rw [← BitVec.toNat_inj, pgn_toNat, xEdp_putPgnParts, xDp_putPgnParts, xPf_putPgnParts, xPs_putPgnParts,
    pgnSplit_edp_toNat, pgnSplit_dp_toNat, pgnSplit_pf_toNat, pgnSplit_ps_toNat]
  unfold PgnAcceptable
  split <;> omega

/-- SPGN of a value that cannot round-trip ends with InvalidPgn (R148, R149). -/
theorem exec_spgn_rejected {v : BitVec 24} {b : BitVec 29} {s : State} (hs : s.slot = some (.ext b))
    (hv : ¬ PgnAcceptable v.toNat) :
    exec (.spgn v) s = raise .invalidPgn (afterRejectedPgn (putPgnParts b v) s) := by
  show execSpgn v s = _
  rw [execSpgn, withExt_ext _ hs, if_pos ((pgn_putPgnParts_eq_iff b v).not.mpr hv)]

/-- A rejected PGN write by the level of the strap (R18, R148). -/
theorem exec_spgn_rejected_by_level {v : BitVec 24} {b : BitVec 29} {s : State} (hs : s.slot = some (.ext b))
    (hv : ¬ PgnAcceptable v.toNat) :
    exec (.spgn v) s = .next (after s
      (some (.ext (if policyLevel s.policy = 1#1 then BitVec.ofNat 29 (replacedBits b.toNat 8 18 (v.toNat % 2 ^ 18))
        else b)))
      (errorIs .invalidPgn)) := by
  rw [exec_spgn_rejected hs hv, raise_eq, ← putPgnParts_ofNat]
  cases hp : s.policy with
  | rollback =>
    rw [afterRejectedPgn_rollback _ hp, hs]
    rfl
  | keepPartial =>
    rw [afterRejectedPgn_keepPartial _ hp]
    rfl

/-- Each level of the strap selects the policy that has it (R18). -/
theorem policyLevel_policyOfLevel (l : BitVec 1) : policyLevel (policyOfLevel l) = l := by
  revert l
  decide

/-- The code 7 is reserved (R77, U8). -/
theorem status_code_ne_seven (k : Status) : k.code ≠ 7#3 := by cases k <;> decide

/-- Settles O56: the ports by their definitions, the strap by what a rejected PGN write leaves. -/
theorem portsCarryTheirCodes : Obligations.PortsCarryTheirCodes := by
  refine ⟨rfl, rfl, policyLevel_policyOfLevel, fun v b s => exec_spgn_rejected_by_level, fun r => ?_,
    fun r => status_code_ne_seven r.status⟩
  obtain ⟨k, d, len, data⟩ := r
  cases k <;> cases d <;> rfl

end Sys2Proof.Proofs

/-! PROOFS. The registers of the block (spec/10_state.md): what reset leaves, what `ID` holds in each format, what a
command's effect depends on, and who writes `VALID` and `FMT`. -/

namespace Sys2Proof.Proofs

open Sys2Proof.Machine Sys2Proof.Safety Sys2Proof.Laws

/-! ### `VALID`, `FMT` and `ID` -/

theorem valid_iff_fmt_ne_none (s : State) : s.valid = true ↔ s.fmt ≠ none := by
  rw [State.valid, State.fmt, ← Option.isSome_iff_ne_none, Option.isSome_map]

theorem valid_iff_id_ne_none (s : State) : s.valid = true ↔ s.id ≠ none := by
  rw [State.valid, State.id, ← Option.isSome_iff_ne_none, Option.isSome_map]

theorem fmt_of_slot {s : State} {i : Ident} (h : s.slot = some i) : s.fmt = some i.fmt :=
  congrArg (Option.map Ident.fmt) h

theorem fmt_eq_of_slot_eq {s t : State} (h : t.slot = s.slot) : t.fmt = s.fmt := congrArg (Option.map Ident.fmt) h

/-- A register of 29 bits holds at most 0x1FFFFFFF (R22). -/
theorem identBits_le_maxExt (i : Ident) : i.bits.toNat ≤ 0x1FFFFFFF := Nat.le_of_lt_succ i.bits.isLt

/-- Under STD the bits 28..11 of the register are 0 (R22). -/
theorem identBits_le_maxStd {i : Ident} (h : i.fmt = .std) : i.bits.toNat ≤ 0x7FF := by
  cases i with
  | ext b => exact nomatch h
  | std x =>
    have hx := x.isLt
    rw [Ident.bits, BitVec.toNat_setWidth]
    omega

/-- Settles O51: all three registers are read off the one slot, whose identifier fits its format. -/
theorem registerFitsTheFormat : Obligations.RegisterFitsTheFormat := by
  refine fun s => ⟨valid_iff_fmt_ne_none s, valid_iff_id_ne_none s, fun n hid => ?_⟩
  obtain ⟨i, hslot, rfl⟩ := Option.map_eq_some_iff.mp hid
  refine ⟨identBits_le_maxExt i, fun hfmt => identBits_le_maxStd ?_⟩
  exact Option.some.inj ((fmt_of_slot hslot).symm.trans hfmt)

/-- Settles O7: both the reset state and the state after `rst` have an empty slot. -/
theorem resetLeavesNoIdentifier : Obligations.ResetLeavesNoIdentifier :=
  ⟨rfl, rfl, rfl, fun _ _ hin => ⟨_, step_rst hin, rfl, rfl, rfl, rfl, rfl⟩⟩

/-! ### What a command's effect depends on -/

/-- On two states with the same slot and policy the operation answers the same and leaves the same slot (R28). -/
def Unlatched (op : State → Host.Outcome State Fault Refusal) : Prop :=
  ∀ s₁ s₂ : State, s₁.slot = s₂.slot → s₁.policy = s₂.policy →
    ∃ slot r, op s₁ = .next (after s₁ slot r) ∧ op s₂ = .next (after s₂ slot r)

theorem unlatched_respond (r : Response) : Unlatched (respond r) := fun s₁ s₂ hslot _ =>
  ⟨s₁.slot, r, respond_eq r s₁, hslot ▸ respond_eq r s₂⟩

theorem unlatched_raise (k : Status) : Unlatched (raise k) := unlatched_respond (Response.error k)

theorem unlatched_publish (d : Bool) (j : Ident) : Unlatched (publish d j) := fun s₁ s₂ _ _ =>
  ⟨_, _, publish_eq d j s₁, publish_eq d j s₂⟩

theorem unlatched_construct (r : Except Status Ident) : Unlatched (construct r) := by
  cases r with
  | ok j => exact unlatched_publish false j
  | error k => exact unlatched_raise k

theorem unlatched_withIdent {k : Ident → State → Host.Outcome State Fault Refusal} (h : ∀ j, Unlatched (k j)) :
    Unlatched fun s => withIdent s fun j => k j s := by
  intro s₁ s₂ hslot hpol
  dsimp only
  cases hs : s₂.slot with
  | none =>
    rw [withIdent_none _ hs, withIdent_none _ (hslot.trans hs)]
    exact unlatched_raise _ s₁ s₂ hslot hpol
  | some j =>
    rw [withIdent_some _ hs, withIdent_some _ (hslot.trans hs)]
    exact h j s₁ s₂ hslot hpol

theorem unlatched_withExt {k : BitVec 29 → State → Host.Outcome State Fault Refusal} (h : ∀ b, Unlatched (k b)) :
    Unlatched fun s => withExt s fun b => k b s := by
  intro s₁ s₂ hslot hpol
  dsimp only
  rcases hs : s₂.slot with _ | _ | b
  · rw [withExt_none _ hs, withExt_none _ (hslot.trans hs)]
    exact unlatched_raise _ s₁ s₂ hslot hpol
  · rw [withExt_std _ hs, withExt_std _ (hslot.trans hs)]
    exact unlatched_raise _ s₁ s₂ hslot hpol
  · rw [withExt_ext _ hs, withExt_ext _ (hslot.trans hs)]
    exact h b s₁ s₂ hslot hpol

/-- The one place where the policy is read (R148). -/
theorem unlatched_rejectedPgn (b : BitVec 29) : Unlatched fun s => raise .invalidPgn (afterRejectedPgn b s) := by
  intro s₁ s₂ hslot hpol
  dsimp only
  cases hp : s₂.policy with
  | rollback =>
    rw [afterRejectedPgn_rollback b hp, afterRejectedPgn_rollback b (hpol.trans hp)]
    exact unlatched_raise _ s₁ s₂ hslot hpol
  | keepPartial =>
    rw [afterRejectedPgn_keepPartial b hp, afterRejectedPgn_keepPartial b (hpol.trans hp)]
    exact ⟨_, _, raise_eq _ _, raise_eq _ _⟩

/-- The constructors end in `construct` of a result that no state enters into (R104). -/
theorem exec_eq_construct {i : Instr} (h : isConstructor i = true) : ∃ r, exec i = construct r := by
  cases i with
  | ldhex ndig val => exact ⟨_, rfl⟩
  | ldraw fmt val => exact ⟨_, rfl⟩
  | newx prio p sa da => exact ⟨_, rfl⟩
  | news prio sa => exact ⟨.ok (.std (prio ++ sa)), rfl⟩
  | _ => exact nomatch h

/-- Once its preamble has read the slot, what a command does is fixed, but for the policy that a rejected PGN write
reads. -/
theorem exec_unlatched (i : Instr) : Unlatched (exec i) := by
  cases i with
  | ldhex ndig val => exact unlatched_construct _
  | ldraw fmt val => exact unlatched_construct _
  | newx prio p sa da => exact unlatched_construct _
  | news prio sa => exact unlatched_construct (.ok (.std (prio ++ sa)))
  | gprio => exact unlatched_withIdent fun _ => unlatched_respond _
  | gsa => exact unlatched_withIdent fun _ => unlatched_respond _
  | gfmt => exact unlatched_withIdent fun _ => unlatched_respond _
  | tohex => exact unlatched_withIdent fun _ => unlatched_respond _
  | tobin => exact unlatched_withIdent fun _ => unlatched_respond _
  | dump => exact unlatched_withIdent fun _ => unlatched_respond _
  | gedp => exact unlatched_withExt fun _ => unlatched_respond _
  | gdp => exact unlatched_withExt fun _ => unlatched_respond _
  | gpf => exact unlatched_withExt fun _ => unlatched_respond _
  | gps => exact unlatched_withExt fun _ => unlatched_respond _
  | gda => exact unlatched_withExt fun _ => unlatched_respond _
  | gpgn => exact unlatched_withExt fun _ => unlatched_respond _
  | gtype => exact unlatched_withExt fun _ => unlatched_respond _
  | sprio v => exact unlatched_withIdent fun _ => unlatched_publish _ _
  | ssa v => exact unlatched_withIdent fun _ => unlatched_publish _ _
  | sedp v => exact unlatched_withExt fun _ => unlatched_publish _ _
  | sdp v => exact unlatched_withExt fun _ => unlatched_publish _ _
  | spf v => exact unlatched_withExt fun _ => unlatched_publish _ _
  | sps v => exact unlatched_withExt fun _ => unlatched_publish _ _
  | sda v => exact unlatched_withExt fun _ => unlatched_publish _ _
  | spgn v =>
    refine unlatched_withExt fun b => ?_
    by_cases hpgn : pgn (putPgnParts b v) ≠ v
    · simpa only [if_pos hpgn] using unlatched_rejectedPgn _
    · simpa only [if_neg hpgn] using unlatched_publish _ _
  | eq fmt val =>
    refine unlatched_withIdent fun j => ?_
    cases immediateOperand fmt val with
    | error k => exact unlatched_raise k
    | ok x => exact unlatched_respond _

/-- Settles O48: no command reads more of the state than the slot and the policy. -/
theorem nothingIsLatched : Obligations.NothingIsLatched := exec_unlatched

/-! ### Who writes `VALID` and `FMT` -/

/-- The outcome leaves `FMT`, and with it `VALID`, as it is in `s`. -/
def KeepsFormat (s : State) (o : Host.Outcome State Fault Refusal) : Prop := ∀ t, o = .next t → t.fmt = s.fmt

section
variable {s : State}

theorem keepsFormat_respond {r : Response} : KeepsFormat s (respond r s) := fun _ h =>
  fmt_eq_of_slot_eq (respond_next h).1

theorem keepsFormat_raise {k : Status} : KeepsFormat s (raise k s) := keepsFormat_respond

/-- A write keeps the format when the new identifier has the format of the old one. -/
theorem keepsFormat_publish {d : Bool} {i j : Ident} (hs : s.slot = some i) (hfmt : j.fmt = i.fmt) :
    KeepsFormat s (publish d j s) := by
  intro t h
  obtain ⟨hslot, -⟩ := publish_next h
  rw [fmt_of_slot hslot, fmt_of_slot hs, hfmt]

theorem keepsFormat_withIdent {k : Ident → Host.Outcome State Fault Refusal}
    (h : ∀ i, s.slot = some i → KeepsFormat s (k i)) : KeepsFormat s (withIdent s k) := by
  obtain ⟨-, e⟩ | ⟨i, hs, e⟩ := withIdent_cases s k
  · exact e ▸ keepsFormat_raise
  · exact e ▸ h i hs

theorem keepsFormat_withExt {k : BitVec 29 → Host.Outcome State Fault Refusal}
    (h : ∀ b, s.slot = some (.ext b) → KeepsFormat s (k b)) : KeepsFormat s (withExt s k) := by
  obtain ⟨-, e⟩ | ⟨-, -, e⟩ | ⟨b, hs, e⟩ := withExt_cases s k
  · exact e ▸ keepsFormat_raise
  · exact e ▸ keepsFormat_raise
  · exact e ▸ h b hs

/-- A rejected PGN write leaves the old identifier or an Extended one in its place (R148). -/
theorem keepsFormat_rejectedPgn {b c : BitVec 29} (hs : s.slot = some (.ext b)) :
    KeepsFormat s (raise .invalidPgn (afterRejectedPgn c s)) := by
  cases hp : s.policy with
  | rollback =>
    rw [afterRejectedPgn_rollback c hp]
    exact keepsFormat_raise
  | keepPartial =>
    intro t h
    rw [afterRejectedPgn_keepPartial c hp] at h
    obtain ⟨hslot, -⟩ := raise_next h
    rw [fmt_of_slot hslot, fmt_of_slot hs, Ident.fmt_ext, Ident.fmt_ext]

end

/-- A command that is no constructor never changes the format, failing or not (R24, R152). -/
theorem exec_keepsFormat {i : Instr} (hi : isConstructor i = false) (s : State) : KeepsFormat s (exec i s) := by
  cases i with
  | ldhex ndig val => exact nomatch hi
  | ldraw fmt val => exact nomatch hi
  | newx prio p sa da => exact nomatch hi
  | news prio sa => exact nomatch hi
  | gprio => exact keepsFormat_withIdent fun _ _ => keepsFormat_respond
  | gsa => exact keepsFormat_withIdent fun _ _ => keepsFormat_respond
  | gfmt => exact keepsFormat_withIdent fun _ _ => keepsFormat_respond
  | tohex => exact keepsFormat_withIdent fun _ _ => keepsFormat_respond
  | tobin => exact keepsFormat_withIdent fun _ _ => keepsFormat_respond
  | dump => exact keepsFormat_withIdent fun _ _ => keepsFormat_respond
  | gedp => exact keepsFormat_withExt fun _ _ => keepsFormat_respond
  | gdp => exact keepsFormat_withExt fun _ _ => keepsFormat_respond
  | gpf => exact keepsFormat_withExt fun _ _ => keepsFormat_respond
  | gps => exact keepsFormat_withExt fun _ _ => keepsFormat_respond
  | gda => exact keepsFormat_withExt fun _ _ => keepsFormat_respond
  | gpgn => exact keepsFormat_withExt fun _ _ => keepsFormat_respond
  | gtype => exact keepsFormat_withExt fun _ _ => keepsFormat_respond
  | sprio v => exact keepsFormat_withIdent fun j hs => keepsFormat_publish hs (Ident.fmt_putPrio v j)
  | ssa v => exact keepsFormat_withIdent fun j hs => keepsFormat_publish hs (Ident.fmt_putSa v j)
  | sedp v => exact keepsFormat_withExt fun _ hs => keepsFormat_publish hs rfl
  | sdp v => exact keepsFormat_withExt fun _ hs => keepsFormat_publish hs rfl
  | spf v => exact keepsFormat_withExt fun _ hs => keepsFormat_publish hs rfl
  | sps v => exact keepsFormat_withExt fun _ hs => keepsFormat_publish hs rfl
  | sda v => exact keepsFormat_withExt fun _ hs => keepsFormat_publish hs rfl
  | spgn v =>
    refine keepsFormat_withExt fun b hs => ?_
    dsimp only
    split
    · exact keepsFormat_rejectedPgn hs
    · exact keepsFormat_publish hs rfl
  | eq fmt val =>
    refine keepsFormat_withIdent fun _ _ => ?_
    split
    · exact keepsFormat_raise
    · exact keepsFormat_respond

/-- A constructor that changes the format has succeeded (R24, R104). -/
theorem exec_constructor_of_fmt_ne {i : Instr} {s t : State} (hi : isConstructor i = true)
    (h : exec i s = .next t) (hfmt : t.fmt ≠ s.fmt) : t.output = s.output ++ [okDone false] := by
  obtain ⟨r, hr⟩ := exec_eq_construct hi
  rw [hr] at h
  obtain ⟨j, -, rfl⟩ | ⟨k, -, rfl⟩ := construct_next h
  · rfl
  · exact absurd rfl hfmt

/-- A word that changes the format is that of a constructor, which succeeded (R24). -/
theorem runCommand_of_fmt_ne {w : Word} {s t : State} (h : runCommand w s = .next t) (hfmt : t.fmt ≠ s.fmt) :
    ∃ i, decode w = .ok i ∧ isConstructor i = true ∧ t.output = s.output ++ [okDone false] := by
  cases hdec : decode w with
  | error e =>
    cases (runCommand_of_illegal hdec s).symm.trans h
    exact absurd rfl hfmt
  | ok i =>
    rw [runCommand_of_decode hdec] at h
    cases hi : isConstructor i with
    | false => exact absurd (exec_keepsFormat hi s t h) hfmt
    | true => exact ⟨i, rfl, hi, exec_constructor_of_fmt_ne hi h hfmt⟩

/-- Settles O46, by the host's next event: none, a command word, or `rst`. -/
theorem onlyConstructorsAndResetWriteTheFormat : Obligations.OnlyConstructorsAndResetWriteTheFormat := by
  intro s t hstep hfmt
  rcases hin : s.input with _ | ⟨w | _, rest⟩
  · cases (step_idle hin).symm.trans hstep
    exact absurd rfl hfmt
  · rw [step_command hin] at hstep
    obtain ⟨i, hdec, hi, hout⟩ := runCommand_of_fmt_ne hstep hfmt
    exact ⟨_, rest, rfl, .inr ⟨w, i, rfl, hdec, hi, hout⟩⟩
  · exact ⟨_, rest, rfl, .inl rfl⟩

end Sys2Proof.Proofs

/-! PROOFS. Repeated commands (spec/20_memory.md R50). A command that leaves the slot as it was finds on its repetition
what it found the first time (R28); a write overwrites its own bits with what they hold. -/

namespace Sys2Proof.Proofs

open Sys2Proof.Machine Sys2Proof.Safety Sys2Proof.Laws

/-! ### Reads -/

/-- The outcome differs from `s` in one more response without the diagnostic. -/
def OnlyAnswers (s : State) (o : Host.Outcome State Fault Refusal) : Prop :=
  ∃ r, r.diag = false ∧ o = .next (after s s.slot r)

section
variable {s : State}

theorem onlyAnswers_respond {r : Response} (hr : r.diag = false) : OnlyAnswers s (respond r s) :=
  ⟨r, hr, respond_eq r s⟩

theorem onlyAnswers_raise {k : Status} : OnlyAnswers s (raise k s) := onlyAnswers_respond rfl

theorem onlyAnswers_withIdent {k : Ident → Host.Outcome State Fault Refusal} (h : ∀ j, OnlyAnswers s (k j)) :
    OnlyAnswers s (withIdent s k) := by
  obtain ⟨-, e⟩ | ⟨j, -, e⟩ := withIdent_cases s k
  · exact e ▸ onlyAnswers_raise
  · exact e ▸ h j

theorem onlyAnswers_withExt {k : BitVec 29 → Host.Outcome State Fault Refusal} (h : ∀ b, OnlyAnswers s (k b)) :
    OnlyAnswers s (withExt s k) := by
  obtain ⟨-, e⟩ | ⟨-, -, e⟩ | ⟨b, -, e⟩ := withExt_cases s k
  · exact e ▸ onlyAnswers_raise
  · exact e ▸ onlyAnswers_raise
  · exact e ▸ h b

end

/-- A read has no side effect (R50, R135, R166). -/
theorem exec_read_onlyAnswers {i : Instr} (hi : isRead i = true) (s : State) : OnlyAnswers s (exec i s) := by
  cases i with
  | gfmt => exact onlyAnswers_withIdent fun _ => onlyAnswers_respond rfl
  | gprio => exact onlyAnswers_withIdent fun _ => onlyAnswers_respond rfl
  | gsa => exact onlyAnswers_withIdent fun _ => onlyAnswers_respond rfl
  | tohex => exact onlyAnswers_withIdent fun _ => onlyAnswers_respond rfl
  | tobin => exact onlyAnswers_withIdent fun _ => onlyAnswers_respond rfl
  | dump => exact onlyAnswers_withIdent fun _ => onlyAnswers_respond rfl
  | gedp => exact onlyAnswers_withExt fun _ => onlyAnswers_respond rfl
  | gdp => exact onlyAnswers_withExt fun _ => onlyAnswers_respond rfl
  | gpf => exact onlyAnswers_withExt fun _ => onlyAnswers_respond rfl
  | gps => exact onlyAnswers_withExt fun _ => onlyAnswers_respond rfl
  | gtype => exact onlyAnswers_withExt fun _ => onlyAnswers_respond rfl
  | gda => exact onlyAnswers_withExt fun _ => onlyAnswers_respond rfl
  | gpgn => exact onlyAnswers_withExt fun _ => onlyAnswers_respond rfl
  | eq fmt val =>
    refine onlyAnswers_withIdent fun _ => ?_
    split
    · exact onlyAnswers_raise
    · exact onlyAnswers_respond rfl
  | _ => exact nomatch hi

/-! ### Writes of what is already there -/

/-- A masked write overwrites an earlier one to the same range. -/
theorem putField_putField_same {n w : Nat} (b : BitVec n) (lo : Nat) (u v : BitVec w) (h : lo + w ≤ n) :
    putField (putField b lo u) lo v = putField b lo v := by
  refine BitVec.eq_of_getLsbD_eq fun i _ => ?_
  rw [putField_getLsbD _ _ _ _ h, putField_getLsbD _ _ _ _ h, putField_getLsbD _ _ _ _ h]
  split <;> rfl

theorem putPrio_putPrio (v : BitVec 3) (j : Ident) : (j.putPrio v).putPrio v = j.putPrio v := by
  cases j with
  | std x => exact congrArg Ident.std (putField_putField_same x 8 v v (by decide))
  | ext b => exact congrArg Ident.ext (putField_putField_same b 26 v v (by decide))

theorem putSa_putSa (v : BitVec 8) (j : Ident) : (j.putSa v).putSa v = j.putSa v := by
  cases j with
  | std x => exact congrArg Ident.std (putField_putField_same x 0 v v (by decide))
  | ext b => exact congrArg Ident.ext (putField_putField_same b 0 v v (by decide))

theorem putPgnParts_putPgnParts (b : BitVec 29) (v : BitVec 24) :
    putPgnParts (putPgnParts b v) v = putPgnParts b v := by
  apply ext_of_fields <;> simp

/-- The diagnostic of a destination write does not depend on the byte it writes (R50, R147). -/
theorem destWriteDiag_putXPs (b : BitVec 29) (v : BitVec 8) : destWriteDiag (putXPs b v) = destWriteDiag b := by
  simp [destWriteDiag]

/-! ### Repetition -/

/-- On what it leaves of `s`, the operation answers the same and leaves the slot as it finds it (R50). -/
def RepeatsOn (op : State → Host.Outcome State Fault Refusal) (s : State) : Prop :=
  ∃ slot r, op s = .next (after s slot r) ∧ op (after s slot r) = .next (after (after s slot r) slot r)

section
variable {op : State → Host.Outcome State Fault Refusal} {s : State}

/-- What did not change the slot meets on its repetition all that its effect depends on. -/
theorem repeatsOn_of_slot_kept (hop : Unlatched op) {r : Response} (h : op s = .next (after s s.slot r)) :
    RepeatsOn op s := by
  obtain ⟨slot, r', hs, ht⟩ := hop s (after s s.slot r) rfl rfl
  obtain ⟨rfl, rfl⟩ := after_inj (Host.Outcome.next.inj (hs.symm.trans h))
  exact ⟨_, _, hs, ht⟩

theorem repeatsOn_raise {k : Status} (hop : Unlatched op) (h : op s = raise k s) : RepeatsOn op s :=
  repeatsOn_of_slot_kept hop (h.trans (raise_eq k s))

/-- A constructor holds the same identifier again, whatever it finds (R104). -/
theorem repeatsOn_construct (r : Except Status Ident) (s : State) : RepeatsOn (construct r) s := by
  cases r with
  | ok j => exact ⟨_, _, publish_eq false j s, publish_eq false j _⟩
  | error k => exact repeatsOn_raise (unlatched_raise k) rfl

/-- A write that serves both formats repeats when writing twice is writing once. -/
theorem repeatsOn_withIdent_publish (f : Ident → Ident) (hf : ∀ j, f (f j) = f j) (s : State) :
    RepeatsOn (fun s => withIdent s fun j => publish false (f j) s) s := by
  have hop := unlatched_withIdent fun j => unlatched_publish false (f j)
  obtain ⟨-, e⟩ | ⟨j, -, e⟩ := withIdent_cases s fun j => publish false (f j) s
  · exact repeatsOn_raise hop e
  · refine ⟨_, _, e.trans (publish_eq _ _ _), ?_⟩
    dsimp only
    rw [withIdent_some _ rfl, hf, publish_eq]

/-- A write to an Extended identifier repeats when writing twice is writing once and the diagnostic does not depend on
what is written. -/
theorem repeatsOn_withExt_publish (d : BitVec 29 → Bool) (f : BitVec 29 → BitVec 29) (hf : ∀ b, f (f b) = f b)
    (hd : ∀ b, d (f b) = d b) (s : State) :
    RepeatsOn (fun s => withExt s fun b => publish (d b) (.ext (f b)) s) s := by
  have hop := unlatched_withExt fun b => unlatched_publish (d b) (.ext (f b))
  obtain ⟨-, e⟩ | ⟨-, -, e⟩ | ⟨b, -, e⟩ := withExt_cases s fun b => publish (d b) (.ext (f b)) s
  · exact repeatsOn_raise hop e
  · exact repeatsOn_raise hop e
  · refine ⟨_, _, e.trans (publish_eq _ _ _), ?_⟩
    dsimp only
    rw [withExt_ext _ rfl, hf, hd, publish_eq]

end

/-- SPGN of a value that round-trips holds the written fields (R148, R149). -/
theorem exec_spgn_accepted {v : BitVec 24} {b : BitVec 29} {s : State} (hs : s.slot = some (.ext b))
    (hv : PgnAcceptable v.toNat) : exec (.spgn v) s = publish false (.ext (putPgnParts b v)) s := by
  show execSpgn v s = _
  rw [execSpgn, withExt_ext _ hs, if_neg (not_not.mpr ((pgn_putPgnParts_eq_iff b v).mpr hv))]

/-- A rejected SPGN under PARTIAL holds the written fields too (R148). -/
theorem exec_spgn_rejected_keepPartial {v : BitVec 24} {b : BitVec 29} {s : State} (hs : s.slot = some (.ext b))
    (hp : s.policy = .keepPartial) (hv : ¬ PgnAcceptable v.toNat) :
    exec (.spgn v) s = .next (after s (some (.ext (putPgnParts b v))) (errorIs .invalidPgn)) := by
  rw [exec_spgn_rejected hs hv, afterRejectedPgn_keepPartial _ hp]
  rfl

/-- A PGN write is accepted or rejected by its value alone, and under PARTIAL both leave the same fields (R50, R148). -/
theorem exec_spgn_repeats (v : BitVec 24) (s : State) : RepeatsOn (exec (.spgn v)) s := by
  have hop := exec_unlatched (.spgn v)
  rcases hs : s.slot with _ | _ | b
  · exact repeatsOn_raise hop (withExt_none _ hs)
  · exact repeatsOn_raise hop (withExt_std _ hs)
  · by_cases hv : PgnAcceptable v.toNat
    · refine ⟨_, _, (exec_spgn_accepted hs hv).trans (publish_eq _ _ _), ?_⟩
      rw [exec_spgn_accepted rfl hv, putPgnParts_putPgnParts, publish_eq]
    · cases hp : s.policy with
      | rollback =>
        have hrej := exec_spgn_rejected hs hv
        rw [afterRejectedPgn_rollback _ hp] at hrej
        exact repeatsOn_raise hop hrej
      | keepPartial =>
        refine ⟨_, _, exec_spgn_rejected_keepPartial hs hp hv, ?_⟩
        rw [exec_spgn_rejected_keepPartial (s := after s _ _) rfl hp hv, putPgnParts_putPgnParts]

/-- The commands that are neither reads nor constructors write fields of what the slot holds. -/
theorem exec_fieldWrite_repeats {i : Instr} (hread : isRead i = false) (hcons : isConstructor i = false) (s : State) :
    RepeatsOn (exec i) s := by
  cases i with
  | sprio v => exact repeatsOn_withIdent_publish (Ident.putPrio v) (putPrio_putPrio v) s
  | ssa v => exact repeatsOn_withIdent_publish (Ident.putSa v) (putSa_putSa v) s
  | sedp v =>
    exact repeatsOn_withExt_publish (fun _ => false) (putXEdp · v)
      (fun b => putField_putField_same b 25 v v (by decide)) (fun _ => rfl) s
  | sdp v =>
    exact repeatsOn_withExt_publish (fun _ => false) (putXDp · v)
      (fun b => putField_putField_same b 24 v v (by decide)) (fun _ => rfl) s
  | spf v =>
    exact repeatsOn_withExt_publish (fun _ => false) (putXPf · v)
      (fun b => putField_putField_same b 16 v v (by decide)) (fun _ => rfl) s
  | sps v =>
    exact repeatsOn_withExt_publish (fun _ => false) (putXPs · v)
      (fun b => putField_putField_same b 8 v v (by decide)) (fun _ => rfl) s
  | sda v =>
    exact repeatsOn_withExt_publish destWriteDiag (putXPs · v)
      (fun b => putField_putField_same b 8 v v (by decide)) (fun b => destWriteDiag_putXPs b v) s
  | spgn v => exact exec_spgn_repeats v s
  | ldhex _ _ | ldraw _ _ | newx _ _ _ _ | news _ _ => exact nomatch hcons
  | _ => exact nomatch hread

/-- Every command is idempotent: a read keeps the slot, a constructor does not look at it, and a field write finds its
own result there (R50). -/
theorem exec_repeats (i : Instr) (s : State) : RepeatsOn (exec i) s := by
  cases hread : isRead i with
  | true =>
    obtain ⟨r, -, e⟩ := exec_read_onlyAnswers hread s
    exact repeatsOn_of_slot_kept (exec_unlatched i) e
  | false =>
    cases hcons : isConstructor i with
    | true =>
      obtain ⟨r, hr⟩ := exec_eq_construct hcons
      exact hr ▸ repeatsOn_construct r s
    | false => exact exec_fieldWrite_repeats hread hcons s

/-- Settles O47: every command repeats, and what a read leaves in the slot is what was there. -/
theorem repeatingACommandChangesNothingMore : Obligations.RepeatingACommandChangesNothingMore := by
  intro i s
  obtain ⟨slot, r, hfirst, hagain⟩ := exec_repeats i s
  refine ⟨slot, r, _, rfl, hfirst, hagain, fun hread => ?_⟩
  obtain ⟨r', -, e⟩ := exec_read_onlyAnswers hread s
  exact (after_inj (Host.Outcome.next.inj (hfirst.symm.trans e))).1

end Sys2Proof.Proofs

/-! PROOFS. The decoder and the encoder (spec/30_encoding.md R71 to R75). Every legal word is an operation code in bits
47..43, zeros, and `width` operand bits from bit 0 up, so the decoder's 26 arms are one table; decoding, encoding and
the masks of opcode_table.json are each said once for every entry of it. -/

namespace Sys2Proof.Proofs

open Sys2Proof.Machine Sys2Proof.Safety Sys2Proof.Laws

/-! ### The arms of the decoder as a table -/

/-- One arm: the operation code, the number of operand bits, and the command that the operand bits of a word spell. -/
structure DecoderArm where
  op : Nat
  width : Nat
  command : Word → Instr

/-- The arms in R74's order. `decode_of_op` and `decode_of_reservedOp` say that the decoder consists of them. -/
def decoderArms : List DecoderArm :=
  [⟨0x01, 36, fun w => .ldhex (w.extractLsb' 32 4) (w.extractLsb' 0 32)⟩,
   ⟨0x02, 33, fun w => .ldraw (formatOfBit (w.extractLsb' 32 1)) (w.extractLsb' 0 32)⟩,
   ⟨0x03, 43, fun w => .newx (w.extractLsb' 40 3) (w.extractLsb' 16 24) (w.extractLsb' 8 8) (w.extractLsb' 0 8)⟩,
   ⟨0x04, 11, fun w => .news (w.extractLsb' 8 3) (w.extractLsb' 0 8)⟩,
   ⟨0x08, 0, fun _ => .gprio⟩, ⟨0x09, 0, fun _ => .gedp⟩, ⟨0x0A, 0, fun _ => .gdp⟩, ⟨0x0B, 0, fun _ => .gpf⟩,
   ⟨0x0C, 0, fun _ => .gps⟩, ⟨0x0D, 0, fun _ => .gsa⟩, ⟨0x0E, 0, fun _ => .gda⟩, ⟨0x0F, 0, fun _ => .gpgn⟩,
   ⟨0x10, 3, fun w => .sprio (w.extractLsb' 0 3)⟩, ⟨0x11, 1, fun w => .sedp (w.extractLsb' 0 1)⟩,
   ⟨0x12, 1, fun w => .sdp (w.extractLsb' 0 1)⟩, ⟨0x13, 8, fun w => .spf (w.extractLsb' 0 8)⟩,
   ⟨0x14, 8, fun w => .sps (w.extractLsb' 0 8)⟩, ⟨0x15, 8, fun w => .ssa (w.extractLsb' 0 8)⟩,
   ⟨0x16, 8, fun w => .sda (w.extractLsb' 0 8)⟩, ⟨0x17, 24, fun w => .spgn (w.extractLsb' 0 24)⟩,
   ⟨0x18, 0, fun _ => .gtype⟩, ⟨0x19, 0, fun _ => .gfmt⟩, ⟨0x1A, 0, fun _ => .tohex⟩, ⟨0x1B, 0, fun _ => .tobin⟩,
   ⟨0x1C, 0, fun _ => .dump⟩,
   ⟨0x1D, 30, fun w => .eq (formatOfBit (w.extractLsb' 29 1)) (w.extractLsb' 0 29)⟩]

/-- The row of opcode_table.json that an arm stands for. -/
def DecoderArm.row (a : DecoderArm) : OpcodeRow :=
  ⟨(a.command 0#48).mnemonic, BitVec.allOnes 48 <<< a.width, BitVec.ofNat 48 (a.op * 2 ^ 43)⟩

/-- The word has the arm's operation code and zeros down to the operand bits. -/
def DecoderArm.Spells (a : DecoderArm) (w : Word) : Prop := w.toNat / 2 ^ a.width = a.op * 2 ^ (43 - a.width)

/-- R75 (c): an LDHEX word whose operand no hex text has. -/
def NoTextOperand (w : Word) : Prop :=
  w.toNat / 2 ^ 43 = 0x01 ∧ 1 ≤ w.toNat / 2 ^ 32 % 2 ^ 4 ∧ w.toNat / 2 ^ 32 % 2 ^ 4 ≤ 7 ∧
    16 ^ (w.toNat / 2 ^ 32 % 2 ^ 4) ≤ w.toNat % 2 ^ 32

theorem opcodeRows_eq_arms : opcodeRows = decoderArms.map DecoderArm.row := by decide

/-- Every arm has a 5-bit operation code and at most 43 operand bits. -/
theorem arm_bounds : ∀ a ∈ decoderArms, a.op < 32 ∧ a.width ≤ 43 := by decide

theorem arm_mnemonic (w : Word) : ∀ a ∈ decoderArms, (a.command w).mnemonic = a.row.mnemonic := by
  simp [decoderArms, DecoderArm.row, Instr.mnemonic]

/-! ### The decoder arm by arm -/

theorem opOf_eq_div (w : Word) : (opOf w).toNat = w.toNat / 2 ^ 43 := by
  have hw := w.isLt
  rw [opOf_toNat]
  omega

theorem hexOperandIllegal_iff {w : Word} (hop : w.toNat / 2 ^ 43 = 0x01) :
    hexOperandIllegal (w.extractLsb' 32 4) (w.extractLsb' 0 32) = true ↔ NoTextOperand w := by
  simp only [hexOperandIllegal, NoTextOperand, Bool.and_eq_true, decide_eq_true_eq, extract_toNat, hop, true_and,
    and_assoc, Nat.pow_zero, Nat.div_one]

theorem not_noTextOperand {w : Word} (hop : w.toNat / 2 ^ 43 ≠ 0x01) : ¬ NoTextOperand w := fun h => hop h.1

/-- The decoder consists of the arms: a word with an arm's operation code, but for R75 (c), is the arm's command if its
reserved bits are 0. LDHEX has the check of R75 (c) before that, and NEWX has no reserved bits. -/
theorem decode_of_op (w : Word) : ∀ a ∈ decoderArms, w.toNat / 2 ^ 43 = a.op → ¬ NoTextOperand w →
    decode w = reservedZero w a.width (43 - a.width) (a.command w) := by
  simp only [decoderArms, List.forall_mem_cons, List.not_mem_nil]
  refine ⟨?_, ?_, ?_, ?_⟩
  · intro hop hno
    have hhex := (hexOperandIllegal_iff hop).not.mpr hno
    simp only [decode, opOf_eq_div, hop, hhex, Bool.false_eq_true, if_false]
  · intro hop _
    simp only [decode, opOf_eq_div, hop]
  · intro hop _
    simp only [decode, opOf_eq_div, hop]
    exact (if_pos BitVec.of_length_zero).symm
  · simp +contextual [decode, opOf_eq_div]

theorem decode_of_noTextOperand {w : Word} (h : NoTextOperand w) : decode w = .error .hexOperand := by
  simp only [decode, opOf_eq_div, h.1, (hexOperandIllegal_iff h.1).mpr h, if_true]

/-- A word with the operation code of no arm is illegal (R75 (a)). -/
theorem decode_of_reservedOp {w : Word} (h : ∀ a ∈ decoderArms, w.toNat / 2 ^ 43 ≠ a.op) :
    decode w = .error .reservedOp := by
  simp only [decoderArms, List.forall_mem_cons] at h
  unfold decode
  rw [opOf_eq_div]
  split <;> simp_all

/-- The bits above the operand are the operation code and the reserved bits. -/
theorem spells_iff {a : DecoderArm} (ha : a ∈ decoderArms) (w : Word) :
    a.Spells w ↔ w.toNat / 2 ^ 43 = a.op ∧ w.toNat / 2 ^ a.width % 2 ^ (43 - a.width) = 0 := by
  obtain ⟨-, hwidth⟩ := arm_bounds a ha
  have hop : w.toNat / 2 ^ a.width / 2 ^ (43 - a.width) = w.toNat / 2 ^ 43 := by
    rw [Nat.div_div_eq_div_mul, ← Nat.pow_add, Nat.add_sub_of_le hwidth]
  unfold DecoderArm.Spells
  rw [← hop]
  generalize w.toNat / 2 ^ a.width = n
  have hpos := Nat.two_pow_pos (43 - a.width)
  constructor
  · rintro rfl
    exact ⟨Nat.mul_div_cancel _ hpos, Nat.mul_mod_left _ _⟩
  · rintro ⟨hdiv, hmod⟩
    rw [← hdiv, Nat.div_mul_cancel (Nat.dvd_of_mod_eq_zero hmod)]

/-- Which words decode, and to what (R71 to R75). -/
theorem decode_eq_ok_iff {w : Word} {i : Instr} :
    decode w = .ok i ↔ ¬ NoTextOperand w ∧ ∃ a ∈ decoderArms, a.Spells w ∧ a.command w = i := by
  constructor
  · intro h
    have hno : ¬ NoTextOperand w := fun hno => nomatch (decode_of_noTextOperand hno).symm.trans h
    refine ⟨hno, ?_⟩
    by_cases hop : ∃ a ∈ decoderArms, w.toNat / 2 ^ 43 = a.op
    · obtain ⟨a, ha, hop⟩ := hop
      rw [decode_of_op w a ha hop hno, reservedZero_eq] at h
      split at h
      · exact ⟨a, ha, (spells_iff ha w).mpr ⟨hop, ‹_›⟩, Except.ok.inj h⟩
      · cases h
    · exact nomatch (decode_of_reservedOp fun a ha e => hop ⟨a, ha, e⟩).symm.trans h
  · rintro ⟨hno, a, ha, hspells, rfl⟩
    obtain ⟨hop, hzero⟩ := (spells_iff ha w).mp hspells
    rw [decode_of_op w a ha hop hno, reservedZero_eq, if_pos hzero]

/-! ### The encoder arm by arm -/

theorem bit_formatOfBit (e : BitVec 1) : (formatOfBit e).bit = e := by
  revert e; decide

/-- Encoding what an arm reads off a word gives the arm's operation code and the word's operand bits. -/
theorem encode_command (w : Word) :
    ∀ a ∈ decoderArms, (encode (a.command w)).toNat = a.op * 2 ^ 43 + w.toNat % 2 ^ a.width := by
  simp only [decoderArms, List.forall_mem_cons, encode_ldhex, encode_ldraw, encode_newx, encode_news, encode_sprio,
    encode_sedp, encode_sdp, encode_spf, encode_sps, encode_ssa, encode_sda, encode_spgn, encode_eq, bit_formatOfBit,
    extract_toNat, Nat.pow_zero, Nat.div_one, Nat.mod_one, true_and]
  refine ⟨by omega, by omega, by omega, by omega, rfl, rfl, rfl, rfl, rfl, rfl, rfl, rfl, rfl, rfl, rfl, rfl, rfl,
    by omega, nofun⟩

/-- A command's word has the command's operation code and nothing but operand bits below it. -/
theorem spells_encode_command {a : DecoderArm} (ha : a ∈ decoderArms) (w : Word) :
    a.Spells (encode (a.command w)) := by
  obtain ⟨-, hwidth⟩ := arm_bounds a ha
  unfold DecoderArm.Spells
  rw [encode_command w a ha, show 43 = 43 - a.width + a.width by omega, Nat.pow_add, ← Nat.mul_assoc,
    Nat.mul_comm _ (2 ^ a.width), Nat.mul_add_div (Nat.two_pow_pos _),
    Nat.div_eq_of_lt (Nat.mod_lt _ (Nat.two_pow_pos _)), Nat.add_zero, Nat.add_sub_cancel]

/-- A bit range, from the number of the whole vector. -/
theorem extract_of_toNat {n lo len : Nat} {x : BitVec n} {v : BitVec len} (h : x.toNat / 2 ^ lo % 2 ^ len = v.toNat) :
    x.extractLsb' lo len = v := BitVec.eq_of_toNat_eq ((extract_toNat x lo len).trans h)

theorem arm_mem {n : Nat} {a : DecoderArm} (h : decoderArms[n]? = some a) : a ∈ decoderArms := List.mem_of_getElem? h

/-- Each operand of a command's word is read where the encoder put it (R72). -/
theorem command_encode (i : Instr) : ∃ a ∈ decoderArms, a.command (encode i) = i := by
  cases i with
  | ldhex ndig val =>
    exact ⟨_, arm_mem (n := 0) rfl, congrArg₂ Instr.ldhex (extract_of_toNat (by rw [encode_ldhex]; omega))
      (extract_of_toNat (by rw [encode_ldhex]; omega))⟩
  | ldraw fmt val =>
    refine ⟨_, arm_mem (n := 1) rfl, congrArg₂ Instr.ldraw ?_ (extract_of_toNat (by rw [encode_ldraw]; omega))⟩
    rw [extract_of_toNat (v := fmt.bit) (by rw [encode_ldraw]; omega), formatOfBit_bit]
  | newx prio p sa da =>
    refine ⟨_, arm_mem (n := 2) rfl, ?_⟩
    dsimp only
    rw [extract_of_toNat (v := prio) (by rw [encode_newx]; omega),
      extract_of_toNat (v := p) (by rw [encode_newx]; omega),
      extract_of_toNat (v := sa) (by rw [encode_newx]; omega),
      extract_of_toNat (v := da) (by rw [encode_newx]; omega)]
  | news prio sa =>
    exact ⟨_, arm_mem (n := 3) rfl, congrArg₂ Instr.news (extract_of_toNat (by rw [encode_news]; omega))
      (extract_of_toNat (by rw [encode_news]; omega))⟩
  | gprio => exact ⟨_, arm_mem (n := 4) rfl, rfl⟩
  | gedp => exact ⟨_, arm_mem (n := 5) rfl, rfl⟩
  | gdp => exact ⟨_, arm_mem (n := 6) rfl, rfl⟩
  | gpf => exact ⟨_, arm_mem (n := 7) rfl, rfl⟩
  | gps => exact ⟨_, arm_mem (n := 8) rfl, rfl⟩
  | gsa => exact ⟨_, arm_mem (n := 9) rfl, rfl⟩
  | gda => exact ⟨_, arm_mem (n := 10) rfl, rfl⟩
  | gpgn => exact ⟨_, arm_mem (n := 11) rfl, rfl⟩
  | sprio v => exact ⟨_, arm_mem (n := 12) rfl, congrArg Instr.sprio (extract_of_toNat (by rw [encode_sprio]; omega))⟩
  | sedp v => exact ⟨_, arm_mem (n := 13) rfl, congrArg Instr.sedp (extract_of_toNat (by rw [encode_sedp]; omega))⟩
  | sdp v => exact ⟨_, arm_mem (n := 14) rfl, congrArg Instr.sdp (extract_of_toNat (by rw [encode_sdp]; omega))⟩
  | spf v => exact ⟨_, arm_mem (n := 15) rfl, congrArg Instr.spf (extract_of_toNat (by rw [encode_spf]; omega))⟩
  | sps v => exact ⟨_, arm_mem (n := 16) rfl, congrArg Instr.sps (extract_of_toNat (by rw [encode_sps]; omega))⟩
  | ssa v => exact ⟨_, arm_mem (n := 17) rfl, congrArg Instr.ssa (extract_of_toNat (by rw [encode_ssa]; omega))⟩
  | sda v => exact ⟨_, arm_mem (n := 18) rfl, congrArg Instr.sda (extract_of_toNat (by rw [encode_sda]; omega))⟩
  | spgn v => exact ⟨_, arm_mem (n := 19) rfl, congrArg Instr.spgn (extract_of_toNat (by rw [encode_spgn]; omega))⟩
  | gtype => exact ⟨_, arm_mem (n := 20) rfl, rfl⟩
  | gfmt => exact ⟨_, arm_mem (n := 21) rfl, rfl⟩
  | tohex => exact ⟨_, arm_mem (n := 22) rfl, rfl⟩
  | tobin => exact ⟨_, arm_mem (n := 23) rfl, rfl⟩
  | dump => exact ⟨_, arm_mem (n := 24) rfl, rfl⟩
  | eq fmt val =>
    refine ⟨_, arm_mem (n := 25) rfl, congrArg₂ Instr.eq ?_ (extract_of_toNat (by rw [encode_eq]; omega))⟩
    rw [extract_of_toNat (v := fmt.bit) (by rw [encode_eq]; omega), formatOfBit_bit]

/-! ### The operand of LDHEX that no text has -/

/-- Only LDHEX has operands that no legal word carries. -/
theorem command_wf (w : Word) : ∀ a ∈ decoderArms,
    ((a.command w).wf = true ↔ a.op = 0x01 → someTextHas (w.extractLsb' 32 4) (w.extractLsb' 0 32) = true) := by
  simp [decoderArms, Instr.wf]

/-- The decoder's check and the instruction's are each other's negation (R75 (c)). -/
theorem someTextHas_iff {w : Word} (hop : w.toNat / 2 ^ 43 = 0x01) :
    someTextHas (w.extractLsb' 32 4) (w.extractLsb' 0 32) = true ↔ ¬ NoTextOperand w := by
  simp only [someTextHas, NoTextOperand, hop, Bool.or_eq_true, decide_eq_true_eq, ← BitVec.toNat_inj, extract_toNat,
    BitVec.toNat_ofNat, Nat.zero_mod, Nat.pow_zero, Nat.div_one, true_and]
  generalize w.toNat / 2 ^ 32 % 2 ^ 4 = n
  generalize 16 ^ n = bound
  omega

theorem command_wf_iff {a : DecoderArm} (ha : a ∈ decoderArms) {w : Word} (hspells : a.Spells w) :
    (a.command w).wf = true ↔ ¬ NoTextOperand w := by
  obtain ⟨hop, -⟩ := (spells_iff ha w).mp hspells
  rw [command_wf w a ha, ← hop]
  by_cases h : w.toNat / 2 ^ 43 = 0x01
  · rw [someTextHas_iff h]
    exact ⟨fun k => k h, fun k _ => k⟩
  · exact ⟨fun _ => not_noTextOperand h, fun _ k => absurd k h⟩

/-! ### The round trips -/

/-- Settles O2: the command's word has its operation code and its operands, and a well-formed command is not one that
R75 (c) excludes. -/
theorem decodeOfEncodeIsTheCommand : Obligations.DecodeOfEncodeIsTheCommand := by
  intro i hwf
  obtain ⟨a, ha, hcommand⟩ := command_encode i
  have hspells : a.Spells (encode i) := by simpa only [hcommand] using spells_encode_command ha (encode i)
  have hno := (command_wf_iff ha hspells).mp (hcommand.symm ▸ hwf)
  exact decode_eq_ok_iff.mpr ⟨hno, a, ha, hspells, hcommand⟩

/-- A word that an arm spells is its operation code and its operand bits, so it is the word of the arm's command. -/
theorem encode_command_of_spells {a : DecoderArm} (ha : a ∈ decoderArms) {w : Word} (hspells : a.Spells w) :
    encode (a.command w) = w := by
  obtain ⟨-, hwidth⟩ := arm_bounds a ha
  refine BitVec.eq_of_toNat_eq ?_
  unfold DecoderArm.Spells at hspells
  calc (encode (a.command w)).toNat
      = a.op * 2 ^ 43 + w.toNat % 2 ^ a.width := encode_command w a ha
    _ = 2 ^ a.width * (a.op * 2 ^ (43 - a.width)) + w.toNat % 2 ^ a.width := by
        rw [Nat.mul_left_comm, ← Nat.pow_add, Nat.add_sub_of_le hwidth]
    _ = w.toNat := by rw [← hspells, Nat.div_add_mod]

/-- Settles O3: a word that decodes is spelled by an arm and is not one that R75 (c) excludes. -/
theorem encodeOfDecodeIsTheWord : Obligations.EncodeOfDecodeIsTheWord := by
  intro w i h
  obtain ⟨hno, a, ha, hspells, rfl⟩ := decode_eq_ok_iff.mp h
  exact ⟨encode_command_of_spells ha hspells, (command_wf_iff ha hspells).mpr hno⟩

/-! ### The masks of opcode_table.json -/

/-- A word fits an arm's row iff the arm spells it: the mask keeps the bits above the operand (R74). -/
theorem matchesWord_row_iff {a : DecoderArm} (ha : a ∈ decoderArms) (w : Word) :
    a.row.matchesWord w = true ↔ a.Spells w := by
  obtain ⟨hop, hwidth⟩ := arm_bounds a ha
  have hfixed : (BitVec.ofNat 48 (a.op * 2 ^ 43)).toNat = a.op * 2 ^ (43 - a.width) * 2 ^ a.width := by
    rw [Nat.mul_assoc, ← Nat.pow_add, Nat.sub_add_cancel hwidth, BitVec.toNat_ofNat]
    omega
  unfold DecoderArm.Spells
  rw [OpcodeRow.matchesWord, beq_iff_eq, DecoderArm.row, ← BitVec.toNat_inj, and_high_mask w _ (by omega), hfixed]
  exact Nat.mul_left_inj (Nat.two_pow_pos _).ne'

/-- No two arms have the same operation code. -/
theorem arm_eq_of_op_eq {a b : DecoderArm} (ha : a ∈ decoderArms) (hb : b ∈ decoderArms) (h : a.op = b.op) : a = b :=
  List.inj_on_of_nodup_map (f := DecoderArm.op) (l := decoderArms) (by decide) ha hb h

/-- At most one row fits a word, for the word has one operation code. -/
theorem opcodeRow_unique (w : Word) : ∀ r₁ ∈ opcodeRows, ∀ r₂ ∈ opcodeRows,
    r₁.matchesWord w = true → r₂.matchesWord w = true → r₁ = r₂ := by
  rw [opcodeRows_eq_arms]
  simp only [List.forall_mem_map]
  intro a ha b hb hwa hwb
  obtain ⟨hopa, -⟩ := (spells_iff ha w).mp ((matchesWord_row_iff ha w).mp hwa)
  obtain ⟨hopb, -⟩ := (spells_iff hb w).mp ((matchesWord_row_iff hb w).mp hwb)
  rw [arm_eq_of_op_eq ha hb (hopa.symm.trans hopb)]

/-- Settles O4: the rows are those of the decoder's arms, and a row fits the words that its arm spells. -/
theorem opcodeRowsDecideEveryWord : Obligations.OpcodeRowsDecideEveryWord := by
  refine ⟨rfl, fun w => ⟨opcodeRow_unique w, fun m => ?_⟩⟩
  change _ ↔ _ ∧ ¬ NoTextOperand w
  rw [opcodeRows_eq_arms]
  constructor
  · rintro ⟨i, hdec, rfl⟩
    obtain ⟨hno, a, ha, hspells, rfl⟩ := decode_eq_ok_iff.mp hdec
    exact ⟨⟨a.row, List.mem_map_of_mem ha, (matchesWord_row_iff ha w).mpr hspells, (arm_mnemonic w a ha).symm⟩, hno⟩
  · rintro ⟨⟨r, hr, hmatch, rfl⟩, hno⟩
    obtain ⟨a, ha, rfl⟩ := List.mem_map.mp hr
    have hspells := (matchesWord_row_iff ha w).mp hmatch
    exact ⟨a.command w, decode_eq_ok_iff.mpr ⟨hno, a, ha, hspells, rfl⟩, arm_mnemonic w a ha⟩

/-- Settles O1: each of the eleven fixed words is decoded. -/
theorem specWordsDecodeToTheirCommands : Obligations.SpecWordsDecodeToTheirCommands := by
  refine ⟨?_, ?_, ?_, ?_, ?_, ?_, ?_, ?_, ?_, ?_, ?_⟩ <;> decide

end Sys2Proof.Proofs

/-! PROOFS. Hex text (spec/30_encoding.md R66, R67, R73): what the front end makes of a text, and LDHEX of it. -/

namespace Sys2Proof.Proofs

open Sys2Proof.Machine Sys2Proof.Safety Sys2Proof.Laws

/-! ### Digits -/

/-- The character with the code `base + n`. -/
theorem eq_ofNat_of_toNat {c : Char} {base : Nat} (h : base ≤ c.toNat) : c = Char.ofNat (base + (c.toNat - base)) := by
  rw [Nat.add_sub_of_le h, Char.ofNat_toNat]

/-- A digit character stands at its value in one of the two rows of digits, from code 48, 97 or 65 on. -/
theorem getElem?_of_digitVal {c : Char} {d : Nat} (h : digitVal c = some d) :
    "0123456789abcdef".toList[d]? = some c ∨ "0123456789ABCDEF".toList[d]? = some c := by
  have hdecimal : ∀ n < 10, "0123456789abcdef".toList[n]? = some (Char.ofNat (48 + n)) := by decide
  have hlower : ∀ n < 6, "0123456789abcdef".toList[n + 10]? = some (Char.ofNat (97 + n)) := by decide
  have hupper : ∀ n < 6, "0123456789ABCDEF".toList[n + 10]? = some (Char.ofNat (65 + n)) := by decide
  simp only [digitVal, Char.reduceToNat] at h
  split at h
  · next hc =>
    cases h
    exact .inl ((hdecimal _ (by omega)).trans (congrArg some (eq_ofNat_of_toNat hc.1).symm))
  · split at h
    · next hc =>
      cases h
      exact .inl ((hlower _ (by omega)).trans (congrArg some (eq_ofNat_of_toNat hc.1).symm))
    · split at h
      · next hc =>
        cases h
        exact .inr ((hupper _ (by omega)).trans (congrArg some (eq_ofNat_of_toNat hc.1).symm))
      · cases h

/-- The character at a place of a row of digits has that place as its value. -/
theorem digitVal_of_getElem? {row : Text} (hrow : ∀ n : Fin row.length, digitVal row[n] = some n) {c : Char} {d : Nat}
    (h : row[d]? = some c) : digitVal c = some d := by
  obtain ⟨hd, rfl⟩ := List.getElem?_eq_some_iff.mp h
  exact hrow ⟨d, hd⟩

/-- The 22 digit characters and their values (R67). -/
theorem digitVal_eq_some_iff (c : Char) (d : Nat) : digitVal c = some d ↔
    "0123456789abcdef".toList[d]? = some c ∨ "0123456789ABCDEF".toList[d]? = some c := by
  constructor
  · exact getElem?_of_digitVal
  · rintro (h | h)
    · exact digitVal_of_getElem? (by decide) h
    · exact digitVal_of_getElem? (by decide) h

/-- A digit character of R66 has the value of its nibble. -/
theorem digitVal_hexDigit (d : BitVec 4) : digitVal (hexDigit d) = some d.toNat := by
  revert d; decide

theorem all_isHexDigit_iff (u : Text) : u.all isHexDigit = true ↔ ∀ c ∈ u, digitVal c ≠ none := by
  simp only [List.all_eq_true, isHexDigit, Option.isSome_iff_ne_none]

/-! ### The value of a digit string -/

/-- The digits by place, in the form the fold needs: after the digits already read, whose value is `acc`, and with the
places counted from the `j`-th character of a text. -/
theorem digitsFold_eq_sum (u : Text) (acc j : Nat) :
    u.foldl (fun acc c => acc * 16 + (digitVal c).getD 0) acc = acc * 16 ^ u.length +
      ((u.zipIdx j).map fun p => (digitVal p.1).getD 0 * 16 ^ (j + u.length - 1 - p.2)).sum := by
  induction u generalizing acc j with
  | nil => simp
  | cons c u ih =>
    have hlen : j + (c :: u).length = j + 1 + u.length := by rw [List.length_cons]; omega
    have hplace : j + 1 + u.length - 1 - j = u.length := by omega
    rw [List.foldl_cons, ih _ (j + 1), List.zipIdx_cons, List.map_cons, List.sum_cons, hlen, hplace, List.length_cons]
    ring

theorem digitsValue_eq_sum (u : Text) : digitsValue 16 u =
    (u.zipIdx.map fun p => (digitVal p.1).getD 0 * 16 ^ (u.length - 1 - p.2)).sum := by
  simpa [digitsValue] using digitsFold_eq_sum u 0 0

/-- The first `m` of the `n` digits that render a number have the value of its bits from that place up. -/
theorem digitsValue_hexText_take {n : Nat} (v : BitVec (4 * n)) (m : Nat) (hm : m ≤ n) :
    digitsValue 16 ((List.range m).map fun k => hexDigit (v.extractLsb' (4 * (n - k - 1)) 4)) =
      v.toNat / 2 ^ (4 * (n - m)) := by
  induction m with
  | zero => simp [digitsValue, Nat.div_eq_of_lt v.isLt]
  | succ m ih =>
    have ih := ih (by omega)
    unfold digitsValue at ih ⊢
    have hplace : 4 * (n - m) = 4 * (n - m - 1) + 4 := by omega
    rw [List.range_succ, List.map_append, List.foldl_append, ih, List.map_singleton, List.foldl_cons, List.foldl_nil,
      digitVal_hexDigit, Option.getD_some, extract_toNat, hplace, Nat.pow_add, ← Nat.div_div_eq_div_mul,
      ← Nat.sub_sub]
    generalize v.toNat / 2 ^ (4 * (n - m - 1)) = q
    omega

/-- The digits that render a number have its value (R66, R67). -/
theorem digitsValue_hexText {n : Nat} (v : BitVec (4 * n)) : digitsValue 16 (hexText n v) = v.toNat := by
  simpa [hexText] using digitsValue_hexText_take v n (Nat.le_refl n)

/-! ### The three kinds of text -/

theorem stripHexMark_eq (t : Text) :
    stripHexMark t = if t[0]? = some '0' ∧ t[1]? = some 'x' then t.drop 2 else t := by
  unfold stripHexMark
  split
  · rfl
  · next hmark =>
    rw [if_neg]
    rintro ⟨h0, h1⟩
    rcases t with _ | ⟨a, _ | ⟨b, u⟩⟩
    · cases h0
    · cases h1
    · cases h0; cases h1
      exact hmark u rfl

/-- A text of 1 to 8 digits is accepted (R67). -/
theorem hexParse_of_digits {t : Text} (hne : stripHexMark t ≠ []) (hdigits : ∀ c ∈ stripHexMark t, digitVal c ≠ none)
    (hlen : (stripHexMark t).length ≤ 8) :
    hexParse t = some ((stripHexMark t).length, digitsValue 16 (stripHexMark t)) := by
  have hall := (all_isHexDigit_iff _).mpr hdigits
  simp [hexParse, hne, hall, hlen]

/-- A text of more than 8 digits is refused, and its operand is its length, at most 15 (R67, R73). -/
theorem ldhexOfText_of_long {t : Text} (hdigits : ∀ c ∈ stripHexMark t, digitVal c ≠ none)
    (hlen : 8 < (stripHexMark t).length) :
    hexParse t = none ∧ ldhexOfText t = .ldhex (BitVec.ofNat 4 (min (stripHexMark t).length 15)) 0#32 := by
  have hall := (all_isHexDigit_iff _).mpr hdigits
  have hparse : hexParse t = none := by simp [hexParse, hall, hlen]
  exact ⟨hparse, by simp [ldhexOfText, hexCmd, hparse, hall, hlen]⟩

/-- A text that is empty or has another character is refused, and its operand is all zeros (R67, R73). -/
theorem ldhexOfText_of_not_hex {t : Text} (h : stripHexMark t = [] ∨ ∃ c ∈ stripHexMark t, digitVal c = none) :
    hexParse t = none ∧ ldhexOfText t = .ldhex 0#4 0#32 := by
  rcases h with hempty | ⟨c, hc, hnone⟩
  · have hparse : hexParse t = none := by simp [hexParse, hempty]
    exact ⟨hparse, by simp [ldhexOfText, hexCmd, hparse, hempty]⟩
  · have hall : (stripHexMark t).all isHexDigit = false :=
      Bool.eq_false_iff.mpr fun hall => (all_isHexDigit_iff _).mp hall c hc hnone
    have hparse : hexParse t = none := by simp [hexParse, hall]
    exact ⟨hparse, by simp [ldhexOfText, hexCmd, hparse, hall]⟩

/-- The operand of an accepted text is its digit count and value: neither is cut to its field. -/
theorem ldhexOfText_of_digits {t : Text} (hne : stripHexMark t ≠ []) (hdigits : ∀ c ∈ stripHexMark t, digitVal c ≠ none)
    (hlen : (stripHexMark t).length ≤ 8) : ∃ ndig val, ldhexOfText t = .ldhex ndig val ∧
      ndig.toNat = (stripHexMark t).length ∧ val.toNat = digitsValue 16 (stripHexMark t) := by
  have hval : digitsValue 16 (stripHexMark t) < 2 ^ 32 :=
    (digitsValue_lt _).trans_le (Nat.pow_le_pow_right (by decide) hlen : _ ≤ 16 ^ 8)
  refine ⟨_, _, by rw [ldhexOfText, hexCmd, hexParse_of_digits hne hdigits hlen], ?_, ?_⟩
  · rw [BitVec.toNat_ofNat, Nat.mod_eq_of_lt (by omega)]
  · rw [BitVec.toNat_ofNat, Nat.mod_eq_of_lt hval]

/-- Settles O55, by the three kinds of text. -/
theorem hexTextIsTokenisedByItsDigits : Obligations.HexTextIsTokenisedByItsDigits := by
  refine ⟨digitVal_eq_some_iff, fun t u hu => ?_⟩
  rw [← stripHexMark_eq] at hu
  subst hu
  rw [← digitsValue_eq_sum]
  exact ⟨fun hne hdigits hlen => ⟨hexParse_of_digits hne hdigits hlen, ldhexOfText_of_digits hne hdigits hlen⟩,
    ldhexOfText_of_long, ldhexOfText_of_not_hex⟩

/-! ### LDHEX of a text -/

/-- LDHEX answers MalformedHex exactly for a digit count of 0 or of more than 8 (R100). -/
theorem hexOperand_malformed_iff (ndig : BitVec 4) (val : BitVec 32) :
    hexOperand ndig val = .error .malformedHex ↔ ndig.toNat = 0 ∨ 8 < ndig.toNat := by
  unfold hexOperand
  split
  · next h => exact iff_of_true rfl h
  · next h =>
    refine iff_of_false ?_ h
    split <;> exact nofun

/-- A constructor answers the error of its operand and nothing else as an error (R105). -/
theorem construct_eq_error_iff {r : Except Status Ident} {k : Status} (hk : k ≠ .ok) (s : State) :
    construct r s = .next (after s s.slot (errorIs k)) ↔ r = .error k := by
  constructor
  · intro h
    cases r with
    | ok j =>
      obtain ⟨-, e⟩ := after_inj (Host.Outcome.next.inj ((publish_eq false j s).symm.trans h))
      exact absurd (congrArg Response.status e).symm hk
    | error k' =>
      obtain ⟨-, e⟩ := after_inj (Host.Outcome.next.inj ((raise_eq k' s).symm.trans h))
      exact congrArg Except.error (congrArg Response.status e)
  · rintro rfl
    exact raise_eq k s

theorem exec_ldhex_malformed_iff (ndig : BitVec 4) (val : BitVec 32) (s : State) :
    exec (.ldhex ndig val) s = .next (after s s.slot (errorIs .malformedHex)) ↔ ndig.toNat = 0 ∨ 8 < ndig.toNat :=
  (construct_eq_error_iff (by decide) s).trans (hexOperand_malformed_iff ndig val)

/-- Settles O38, by the three kinds of text: the tokenised digit count is 0, more than 8, or that of the digits. -/
theorem ldhexOfTextIsMalformedExactlyWhenTheTextIs : Obligations.LdhexOfTextIsMalformedExactlyWhenTheTextIs := by
  intro t s
  refine ⟨ldhexOfText_wf t, ?_⟩
  by_cases hbad : stripHexMark t = [] ∨ ∃ c ∈ stripHexMark t, digitVal c = none
  · rw [(ldhexOfText_of_not_hex hbad).2, exec_ldhex_malformed_iff, ← or_assoc]
    exact iff_of_true (.inl rfl) (.inl hbad)
  rw [← or_assoc, or_iff_right hbad]
  push Not at hbad
  obtain ⟨hne, hdigits⟩ := hbad
  by_cases hlong : 8 < (stripHexMark t).length
  · rw [(ldhexOfText_of_long hdigits hlong).2, exec_ldhex_malformed_iff]
    refine iff_of_true (.inr ?_) hlong
    rw [BitVec.toNat_ofNat]
    omega
  · obtain ⟨ndig, val, e, hndig, -⟩ := ldhexOfText_of_digits hne hdigits (Nat.le_of_not_lt hlong)
    rw [e, exec_ldhex_malformed_iff, hndig, List.length_eq_zero_iff, or_iff_right hne]

/-! ### LDHEX of what TOHEX renders -/

theorem hexText_length {n : Nat} (v : BitVec (4 * n)) : (hexText n v).length = n := by simp [hexText]

theorem digitVal_ne_none_of_mem_hexText {n : Nat} {v : BitVec (4 * n)} : ∀ c ∈ hexText n v, digitVal c ≠ none := by
  simp [hexText, digitVal_hexDigit]

/-- A rendered text has no `0x` mark: `x` is no digit. -/
theorem stripHexMark_hexText {n : Nat} (v : BitVec (4 * n)) : stripHexMark (hexText n v) = hexText n v := by
  rw [stripHexMark_eq, if_neg]
  rintro ⟨-, h⟩
  exact digitVal_ne_none_of_mem_hexText 'x' (List.mem_of_getElem? h) (by decide)

/-- A rendered number is tokenised to the rendered width and the number (R66, R73). -/
theorem ldhexOfText_hexText {n : Nat} (hpos : 0 < n) (hle : n ≤ 8) (v : BitVec (4 * n)) :
    ∃ ndig val, ldhexOfText (hexText n v) = .ldhex ndig val ∧ ndig.toNat = n ∧ val.toNat = v.toNat := by
  have h := ldhexOfText_of_digits (t := hexText n v)
  rw [stripHexMark_hexText, hexText_length, digitsValue_hexText] at h
  exact h (List.ne_nil_of_length_pos (by rw [hexText_length]; exact hpos)) digitVal_ne_none_of_mem_hexText hle

theorem paddedStd_toNat (x : BitVec 11) : (paddedStd x).toNat = x.toNat :=
  (append_toNat 0#5 x).trans (by simp)

theorem paddedExt_toNat (b : BitVec 29) : (paddedExt b).toNat = b.toNat :=
  (append_toNat 0#3 b).trans (by simp)

/-- An operand with 1 to 8 digits in range names an identifier of the selected format (R100). -/
theorem hexOperand_of_le {ndig : BitVec 4} {val : BitVec 32} (hpos : ndig.toNat ≠ 0) (hle : ndig.toNat ≤ 8)
    (hval : val.toNat ≤ 0x1FFFFFFF) :
    hexOperand ndig val = .ok (identOfNumber (selectFormat ndig.toNat val.toNat) val) := by
  rw [hexOperand, if_neg (not_or.mpr ⟨hpos, hle.not_gt⟩), if_neg hval.not_gt]

/-- The operand of an identifier's hex text names that identifier: 4 digits of an 11-bit number select Standard and 8
digits Extended (R65, R69). -/
theorem ldhexOfText_toHex (i : Ident) :
    ∃ ndig val, ldhexOfText (toHex i) = .ldhex ndig val ∧ hexOperand ndig val = .ok i := by
  cases i with
  | std x =>
    obtain ⟨ndig, val, e, hndig, hval⟩ := ldhexOfText_hexText (n := 4) (by decide) (by decide) (paddedStd x)
    have hx := x.isLt
    rw [paddedStd_toNat] at hval
    refine ⟨ndig, val, e, ?_⟩
    have hstd : selectFormat ndig.toNat val.toNat = .std := if_pos ⟨hndig.le, show val.toNat ≤ 0x7FF by omega⟩
    rw [hexOperand_of_le (by omega) (by omega) (by omega), hstd]
    refine congrArg (Except.ok ∘ Ident.std) (BitVec.eq_of_toNat_eq ?_)
    rw [extract_toNat, hval]
    omega
  | ext b =>
    obtain ⟨ndig, val, e, hndig, hval⟩ := ldhexOfText_hexText (n := 8) (by decide) (by decide) (paddedExt b)
    have hb := b.isLt
    rw [paddedExt_toNat] at hval
    refine ⟨ndig, val, e, ?_⟩
    have hext : selectFormat ndig.toNat val.toNat = .ext := if_neg fun h => absurd (hndig ▸ h.1) (by decide)
    rw [hexOperand_of_le (by omega) (by omega) (by omega), hext]
    refine congrArg (Except.ok ∘ Ident.ext) (BitVec.eq_of_toNat_eq ?_)
    rw [extract_toNat, hval]
    omega

/-- Settles O36: the operand names the identifier, and a constructor does not look at the state. -/
theorem ldhexOfTohexReproducesTheIdentifier : Obligations.LdhexOfTohexReproducesTheIdentifier := by
  intro i s
  obtain ⟨ndig, val, e, hok⟩ := ldhexOfText_toHex i
  rw [e]
  show construct (hexOperand ndig val) s = _
  rw [hok]
  exact publish_eq false i s

end Sys2Proof.Proofs

/-! PROOFS. The form of the responses (spec/30_encoding.md R76, R78) and the packing of DUMP (R79). -/

namespace Sys2Proof.Proofs

open Sys2Proof.Machine Sys2Proof.Safety Sys2Proof.Laws

/-! ### The responses have the form -/

/-- A response without a string has the form if an error and the diagnostic come with zeros. -/
theorem responseShape_of_len_zero {r : Response} (hlen : r.len = 0#6)
    (herr : r.status ≠ .ok → r.diag = false ∧ r.data = 0#96) (hdiag : r.diag = true → r.data = 0#96) :
    ResponseShape r := by
  refine ⟨fun h => ⟨(herr h).1, hlen, (herr h).2⟩, fun h => ⟨hlen, hdiag h⟩, .inl hlen, ?_, ?_⟩
  · rw [hlen]; exact fun h => absurd h (by decide)
  · rw [hlen]; exact fun h => absurd h (by decide)

theorem responseShape_error (k : Status) : ResponseShape (Response.error k) :=
  responseShape_of_len_zero rfl (fun _ => ⟨rfl, rfl⟩) fun _ => rfl

theorem responseShape_done (d : Bool) : ResponseShape (Response.done d) :=
  responseShape_of_len_zero rfl (fun h => absurd rfl h) fun _ => rfl

theorem responseShape_number {w : Nat} (v : BitVec w) : ResponseShape (Response.number v) :=
  responseShape_of_len_zero rfl (fun h => absurd rfl h) nofun

theorem string_data_le {w : Nat} (len : Nat) (v : BitVec w) : (Response.string len v).data.toNat ≤ v.toNat := by
  simpa only [Response.string, BitVec.toNat_setWidth] using Nat.mod_le _ _

/-- A string of 4 or 11 characters carries a Standard identifier. -/
theorem responseShape_string_std {w len : Nat} {v : BitVec w} (hlen : len = 4 ∨ len = 11) (hv : v.toNat ≤ 0x7FF) :
    ResponseShape (Response.string len v) := by
  have hdata := (string_data_le len v).trans hv
  refine ⟨fun h => absurd rfl h, nofun, ?_, fun _ => hdata, fun _ => hdata.trans (by decide)⟩
  rcases hlen with rfl | rfl
  · exact .inr (.inl rfl)
  · exact .inr (.inr (.inr (.inl rfl)))

/-- A string of 8 or 29 characters carries an Extended identifier. -/
theorem responseShape_string_ext {w len : Nat} {v : BitVec w} (hlen : len = 8 ∨ len = 29)
    (hv : v.toNat ≤ 0x1FFFFFFF) : ResponseShape (Response.string len v) := by
  have hdata := (string_data_le len v).trans hv
  rcases hlen with rfl | rfl
  · exact ⟨fun h => absurd rfl h, nofun, .inr (.inr (.inl rfl)), by simp [Response.string], fun _ => hdata⟩
  · exact ⟨fun h => absurd rfl h, nofun, .inr (.inr (.inr (.inr rfl))), by simp [Response.string], fun _ => hdata⟩

theorem padded_toNat (i : Ident) : i.padded.toNat = i.bits.toNat := by
  cases i with
  | std x =>
    have hx := x.isLt
    rw [Ident.padded, Ident.bits, BitVec.toNat_setWidth, BitVec.toNat_setWidth, paddedStd_toNat]
    omega
  | ext b => exact paddedExt_toNat b

theorem responseShape_tohex (i : Ident) : ResponseShape (Response.string i.hexLen i.padded) := by
  have hbits := padded_toNat i
  cases i with
  | std x => exact responseShape_string_std (.inl rfl) (hbits.trans_le (identBits_le_maxStd rfl))
  | ext b => exact responseShape_string_ext (.inl rfl) (hbits.trans_le (identBits_le_maxExt _))

theorem responseShape_tobin (i : Ident) : ResponseShape (Response.string i.width i.bits) := by
  cases i with
  | std x => exact responseShape_string_std (.inr rfl) (identBits_le_maxStd rfl)
  | ext b => exact responseShape_string_ext (.inr rfl) (identBits_le_maxExt _)

/-- The outcome is a next state with one more response than `s`, which has the form of R76. -/
def AnswersInForm (s : State) (o : Host.Outcome State Fault Refusal) : Prop :=
  ∃ slot r, ResponseShape r ∧ o = .next (after s slot r)

section
variable {s : State}

theorem answersInForm_respond {r : Response} (hr : ResponseShape r) : AnswersInForm s (respond r s) :=
  ⟨_, r, hr, respond_eq r s⟩

theorem answersInForm_number {w : Nat} (v : BitVec w) : AnswersInForm s (respond (Response.number v) s) :=
  answersInForm_respond (responseShape_number v)

theorem answersInForm_raise (k : Status) : AnswersInForm s (raise k s) := answersInForm_respond (responseShape_error k)

theorem answersInForm_publish (d : Bool) (j : Ident) : AnswersInForm s (publish d j s) :=
  ⟨_, _, responseShape_done d, publish_eq d j s⟩

theorem answersInForm_construct (r : Except Status Ident) : AnswersInForm s (construct r s) := by
  cases r with
  | ok j => exact answersInForm_publish false j
  | error k => exact answersInForm_raise k

/-- A rejected PGN write answers zeros under both policies (R148, R186). -/
theorem answersInForm_rejectedPgn (b : BitVec 29) : AnswersInForm s (raise .invalidPgn (afterRejectedPgn b s)) := by
  cases hp : s.policy with
  | rollback =>
    rw [afterRejectedPgn_rollback b hp]
    exact answersInForm_raise _
  | keepPartial =>
    rw [afterRejectedPgn_keepPartial b hp]
    exact ⟨_, _, responseShape_error _, raise_eq _ _⟩

theorem answersInForm_withIdent {k : Ident → Host.Outcome State Fault Refusal} (h : ∀ j, AnswersInForm s (k j)) :
    AnswersInForm s (withIdent s k) := by
  obtain ⟨-, e⟩ | ⟨j, -, e⟩ := withIdent_cases s k
  · exact e ▸ answersInForm_raise _
  · exact e ▸ h j

theorem answersInForm_withExt {k : BitVec 29 → Host.Outcome State Fault Refusal} (h : ∀ b, AnswersInForm s (k b)) :
    AnswersInForm s (withExt s k) := by
  obtain ⟨-, e⟩ | ⟨-, -, e⟩ | ⟨b, -, e⟩ := withExt_cases s k
  · exact e ▸ answersInForm_raise _
  · exact e ▸ answersInForm_raise _
  · exact e ▸ h b

end

/-- Every command answers zeros with an error, a number, a string as long as its identifier, or nothing (R76, R78). -/
theorem exec_answersInForm (i : Instr) (s : State) : AnswersInForm s (exec i s) := by
  cases i with
  | ldhex ndig val => exact answersInForm_construct _
  | ldraw fmt val => exact answersInForm_construct _
  | newx prio p sa da => exact answersInForm_construct _
  | news prio sa => exact answersInForm_publish _ _
  | gfmt => exact answersInForm_withIdent fun _ => answersInForm_number _
  | gprio => exact answersInForm_withIdent fun _ => answersInForm_number _
  | gsa => exact answersInForm_withIdent fun _ => answersInForm_number _
  | dump => exact answersInForm_withIdent fun _ => answersInForm_number _
  | tohex => exact answersInForm_withIdent fun j => answersInForm_respond (responseShape_tohex j)
  | tobin => exact answersInForm_withIdent fun j => answersInForm_respond (responseShape_tobin j)
  | gedp => exact answersInForm_withExt fun _ => answersInForm_number _
  | gdp => exact answersInForm_withExt fun _ => answersInForm_number _
  | gpf => exact answersInForm_withExt fun _ => answersInForm_number _
  | gps => exact answersInForm_withExt fun _ => answersInForm_number _
  | gtype => exact answersInForm_withExt fun _ => answersInForm_number _
  | gda => exact answersInForm_withExt fun _ => answersInForm_number _
  | gpgn => exact answersInForm_withExt fun _ => answersInForm_number _
  | eq fmt val =>
    refine answersInForm_withIdent fun _ => ?_
    split
    · exact answersInForm_raise _
    · exact answersInForm_number _
  | sprio v => exact answersInForm_withIdent fun _ => answersInForm_publish _ _
  | ssa v => exact answersInForm_withIdent fun _ => answersInForm_publish _ _
  | sedp v => exact answersInForm_withExt fun _ => answersInForm_publish _ _
  | sdp v => exact answersInForm_withExt fun _ => answersInForm_publish _ _
  | spf v => exact answersInForm_withExt fun _ => answersInForm_publish _ _
  | sps v => exact answersInForm_withExt fun _ => answersInForm_publish _ _
  | sda v => exact answersInForm_withExt fun _ => answersInForm_publish _ _
  | spgn v =>
    refine answersInForm_withExt fun b => ?_
    dsimp only
    split
    · exact answersInForm_rejectedPgn _
    · exact answersInForm_publish _ _

/-- An illegal word is answered as an error is (R75, R76). -/
theorem runCommand_answersInForm (w : Word) (s : State) : AnswersInForm s (runCommand w s) := by
  cases h : decode w with
  | ok i => exact runCommand_of_decode h s ▸ exec_answersInForm i s
  | error e => exact ⟨_, _, responseShape_error .illegalCmd, runCommand_of_illegal h s⟩

/-- One more response of the form keeps the invariant. -/
theorem inv_after {s : State} {slot : Option Ident} {r : Response} (hs : Inv s) (hr : ResponseShape r) :
    Inv (after s slot r) := by
  intro q hq
  obtain hq | hq := List.mem_append.mp hq
  · exact hs q hq
  · exact List.mem_singleton.mp hq ▸ hr

/-- Settles O50, by the host's next event: none and `rst` answer nothing, and a command word answers in the form. -/
theorem everyStepKeepsTheResponseForm : Obligations.EveryStepKeepsTheResponseForm := by
  intro s t hinv hstep
  rcases hin : s.input with _ | ⟨w | _, rest⟩
  · cases (step_idle hin).symm.trans hstep
    exact hinv
  · obtain ⟨slot, r, hr, e⟩ := runCommand_answersInForm w { s with input := rest }
    cases ((step_command hin).trans e).symm.trans hstep
    exact inv_after (s := { s with input := rest }) hinv hr
  · cases (step_rst hin).symm.trans hstep
    exact hinv

/-- Settles O49: nothing has been answered at reset. -/
theorem invariantHoldsAtReset : Obligations.InvariantHoldsAtReset := by
  intro r hr
  rw [State.reset_output] at hr
  exact nomatch hr

/-! ### The packing of DUMP -/

theorem pduType_code (pf : BitVec 8) : (pduType pf).code = if pf.toNat < 240 then 1#2 else 2#2 := by
  by_cases h : pf.toNat < 240
  · rw [(pduType_eq_type1 pf).mpr h, if_pos h]; rfl
  · rw [(pduType_eq_type2 pf).mpr (Nat.le_of_not_lt h), if_neg h]; rfl

/-- DUMP of a Standard identifier as a number (R79). -/
theorem dumpData_std_toNat (x : BitVec 11) : (dumpData (.std x)).toNat =
    x.toNat + (sPrio x).toNat * 2 ^ 32 + (sSa x).toNat * 2 ^ 53 := by
  have hbits : (Ident.std x).bits.toNat = x.toNat :=
    (BitVec.toNat_setWidth 29 x).trans (Nat.mod_eq_of_lt (by omega))
  simp only [dumpData, append_toNat, padded_toNat, hbits, BitVec.toNat_ofNat]
  omega

/-- DUMP of an Extended identifier as a number (R79). -/
theorem dumpData_ext_toNat (b : BitVec 29) : (dumpData (.ext b)).toNat =
    b.toNat + (xPrio b).toNat * 2 ^ 32 + (xEdp b).toNat * 2 ^ 35 + (xDp b).toNat * 2 ^ 36 +
      (xPf b).toNat * 2 ^ 37 + (xPs b).toNat * 2 ^ 45 + (xSa b).toNat * 2 ^ 53 + (destAddr b).toNat * 2 ^ 61 +
      (pgn b).toNat * 2 ^ 69 + (pduType (xPf b)).code.toNat * 2 ^ 93 + 2 ^ 95 := by
  have hbits : (Ident.ext b).bits.toNat = b.toNat := rfl
  simp only [dumpData, append_toNat, padded_toNat, hbits, BitVec.toNat_ofNat]
  omega

/-- One bit, from the number of the whole vector. -/
theorem getLsbD_of_toNat {n k : Nat} {x : BitVec n} {v : Bool} (h : x.toNat / 2 ^ k % 2 = v.toNat) :
    x.getLsbD k = v := by
  rw [BitVec.getLsbD, Nat.testBit_eq_decide_div_mod_eq, h]
  cases v <;> rfl

/-- The parts at R79's positions are R163's field map. -/
theorem unpackDump_dumpData (i : Ident) : unpackDump (dumpData i) = dumpMap i := by
  cases i with
  | std x =>
    have hd := dumpData_std_toNat x
    rw [unpackDump, getLsbD_of_toNat (v := false) (by rw [hd, Bool.toNat_false]; omega), if_neg Bool.false_ne_true,
      extract_of_toNat (v := paddedStd x) (by rw [hd, paddedStd_toNat]; omega),
      extract_of_toNat (v := sPrio x) (by rw [hd]; omega), extract_of_toNat (v := sSa x) (by rw [hd]; omega)]
    rfl
  | ext b =>
    have hd := dumpData_ext_toNat b
    rw [unpackDump, getLsbD_of_toNat (v := true) (by rw [hd, Bool.toNat_true]; omega), if_pos rfl,
      extract_of_toNat (v := paddedExt b) (by rw [hd, paddedExt_toNat]; omega),
      extract_of_toNat (v := xPrio b) (by rw [hd]; omega), extract_of_toNat (v := xEdp b) (by rw [hd]; omega),
      extract_of_toNat (v := xDp b) (by rw [hd]; omega), extract_of_toNat (v := xPf b) (by rw [hd]; omega),
      extract_of_toNat (v := xPs b) (by rw [hd]; omega), extract_of_toNat (v := xSa b) (by rw [hd]; omega),
      extract_of_toNat (v := destAddr b) (by rw [hd]; omega), extract_of_toNat (v := pgn b) (by rw [hd]; omega),
      extract_of_toNat (v := (pduType (xPf b)).code) (by rw [hd]; omega)]
    rfl

theorem exec_dump_of_slot {s : State} {i : Ident} (h : s.slot = some i) :
    exec .dump s = .next (after s (some i) (Response.number (dumpData i))) := by
  show withIdent s _ = _
  rw [withIdent_some _ h, respond_eq, h]

theorem payload_dump (i : Ident) : (Response.number (dumpData i)).payload .dump = .fields (dumpMap i) := by
  rw [← unpackDump_dumpData]
  simp [Response.payload, Response.number]

/-- Settles O33, by what the slot holds. -/
theorem dumpPacksTheFieldMap : Obligations.DumpPacksTheFieldMap := by
  refine ⟨rfl, fun s => ⟨fun h => ?_, fun x h => ?_, fun b h => ?_⟩⟩
  · show withIdent s _ = _
    rw [withIdent_none _ h, raise_eq, h]
  · refine ⟨_, ?_, exec_dump_of_slot h, payload_dump _⟩
    have hprio : x.toNat / 2 ^ 8 < 2 ^ 3 := by omega
    rw [number_eq, dumpData_std_toNat, sPrio_toNat, sSa_toNat, Nat.mod_eq_of_lt hprio, Nat.pow_zero, Nat.div_one]
  · refine ⟨_, ?_, exec_dump_of_slot h, ?_⟩
    · rw [number_eq, dumpData_ext_toNat, pduType_code]
      split <;> rfl
    · rw [payload_dump, dumpMap, pduType_code]

end Sys2Proof.Proofs

/-! PROOFS. The constructors (spec/40_construct.md): the number an operand spells as an identifier, what each of the four
commands holds or answers, and TOHEX of what LDHEX holds (R106). -/

namespace Sys2Proof.Proofs

open Sys2Proof.Machine Sys2Proof.Safety Sys2Proof.Laws

/-! ### How a constructor ends -/

/-- A constructor's identifier replaces the slot (R104). -/
theorem construct_of_ok {r : Except Status Ident} {i : Ident} (h : r = .ok i) (s : State) :
    construct r s = .next (after s (some i) (okDone false)) := h ▸ publish_eq false i s

/-- A constructor's error leaves the slot as it was (R105). -/
theorem construct_of_error {r : Except Status Ident} {k : Status} (h : r = .error k) (s : State) :
    construct r s = .next (after s s.slot (errorIs k)) := h ▸ raise_eq k s

/-- One identifier is held from every state, or one error is answered from every state. -/
def IgnoresTheState (op : State → Host.Outcome State Fault Refusal) : Prop :=
  (∃ j : Ident, ∀ s, op s = .next (after s (some j) (okDone false))) ∨
  (∃ k : Status, k ≠ .ok ∧ ∀ s, op s = .next (after s s.slot (errorIs k)))

theorem ignoresTheState_construct {r : Except Status Ident} (h : ∀ k, r = .error k → k ≠ .ok) :
    IgnoresTheState (construct r) := by
  cases r with
  | ok j => exact .inl ⟨j, construct_of_ok rfl⟩
  | error k => exact .inr ⟨k, h k rfl, construct_of_error rfl⟩

/-- Settles O14: a constructor's end is decided by its operand, which names an identifier or an error kind. -/
theorem constructorResultIgnoresTheOldState : Obligations.ConstructorResultIgnoresTheOldState := by
  intro i hi
  show IgnoresTheState (exec i)
  cases i with
  | ldhex ndig val => exact ignoresTheState_construct fun _ => hexOperand_error_ne_ok
  | ldraw fmt val => exact ignoresTheState_construct fun _ => rawOperand_error_ne_ok
  | newx prio p sa da => exact ignoresTheState_construct fun _ => fieldsOperand_error_ne_ok
  | news prio sa => exact ignoresTheState_construct (r := .ok (.std (prio ++ sa))) nofun
  | _ => exact nomatch hi

/-! ### NEWX and NEWS -/

/-- A value by its six fields (R62). -/
theorem ext_eq_sum (b : BitVec 29) : b.toNat =
    (xPrio b).toNat * 2 ^ 26 + (xEdp b).toNat * 2 ^ 25 + (xDp b).toNat * 2 ^ 24 + (xPf b).toNat * 2 ^ 16 +
      (xPs b).toNat * 2 ^ 8 + (xSa b).toNat := by
  rw [xPrio_toNat, xEdp_toNat, xDp_toNat, xPf_toNat, xPs_toNat, xSa_toNat]
  omega

/-- A PGN that does not read back from the scratch value is refused (R102, R149). -/
theorem fieldsOperand_rejected {prio : BitVec 3} {p : BitVec 24} {sa da : BitVec 8} (h : ¬ PgnAcceptable p.toNat) :
    fieldsOperand prio p sa da = .error .invalidPgn :=
  if_pos ((pgn_putPgnParts_eq_iff _ p).not.mpr h)

/-- A value with the edp, dp and pf of an 18-bit PGN: its bits 25..16 are the PGN without the low byte (R62, R64). -/
theorem eq_ofNat_of_fields {b : BitVec 29} {p : BitVec 24} (hp : p.toNat < 2 ^ 18) (hedp : xEdp b = (pgnSplit p).edp)
    (hdp : xDp b = (pgnSplit p).dp) (hpf : xPf b = (pgnSplit p).pf) :
    b = BitVec.ofNat 29 ((xPrio b).toNat * 2 ^ 26 + p.toNat / 2 ^ 8 * 2 ^ 16 + (xPs b).toNat * 2 ^ 8 +
      (xSa b).toNat) := by
  have hsum := ext_eq_sum b
  rw [hedp, hdp, hpf, pgnSplit_edp_toNat, pgnSplit_dp_toNat, pgnSplit_pf_toNat] at hsum
  have hnum : (xPrio b).toNat * 2 ^ 26 + p.toNat / 2 ^ 8 * 2 ^ 16 + (xPs b).toNat * 2 ^ 8 + (xSa b).toNat =
      b.toNat := by omega
  rw [hnum, BitVec.ofNat_toNat, BitVec.setWidth_eq]

/-- An acceptable PGN: `da` replaces its low byte under type 1 and is ignored under type 2 (R102). -/
theorem fieldsOperand_accepted {prio : BitVec 3} {p : BitVec 24} {sa da : BitVec 8} (h : PgnAcceptable p.toNat) :
    fieldsOperand prio p sa da = .ok (.ext (BitVec.ofNat 29 (prio.toNat * 2 ^ 26 + p.toNat / 2 ^ 8 * 2 ^ 16 +
      (if p.toNat / 2 ^ 8 % 2 ^ 8 < 240 then da.toNat else p.toNat % 2 ^ 8) * 2 ^ 8 + sa.toNat))) := by
  have hkept := (pgn_putPgnParts_eq_iff (putXPrio 0#29 prio) p).mpr h
  rw [fieldsOperand, if_neg (not_not_intro hkept)]
  dsimp only
  rw [xPf_putXSa, xPf_putPgnParts]
  by_cases hpf : p.toNat / 2 ^ 8 % 2 ^ 8 < 240
  · rw [(pduType_eq_type1 _).mpr (by rwa [pgnSplit_pf_toNat]), if_pos hpf]
    dsimp only
    rw [eq_ofNat_of_fields (b := putXPs _ da) h.1 (by simp) (by simp) (by simp)]
    simp
  · rw [(pduType_eq_type2 _).mpr (by rw [pgnSplit_pf_toNat]; omega), if_neg hpf]
    dsimp only
    rw [eq_ofNat_of_fields (b := putXSa _ sa) h.1 (by simp) (by simp) (by simp)]
    simp [pgnSplit_ps_toNat]

/-- Settles O12, by whether the PGN reads back from the scratch value. -/
theorem newxConstructsFromFields : Obligations.NewxConstructsFromFields := fun _ _ _ _ s =>
  ⟨rfl, fun h => construct_of_ok (fieldsOperand_accepted h) s, fun h => construct_of_error (fieldsOperand_rejected h) s⟩

/-- Settles O13: the two fields side by side are their weighted sum. -/
theorem newsConstructsFromFields : Obligations.NewsConstructsFromFields := by
  intro prio sa s
  have hsum : prio ++ sa = BitVec.ofNat 11 (prio.toNat * 2 ^ 8 + sa.toNat) := by
    rw [← append_toNat, BitVec.ofNat_toNat, BitVec.setWidth_eq]
  exact ⟨rfl, hsum ▸ construct_of_ok rfl s⟩

/-! ### LDHEX and LDRAW -/

/-- The identifier that a number spells keeps the number's low bits (R100, R101). -/
theorem identOfNumber_std (val : BitVec 32) : identOfNumber .std val = .std (BitVec.ofNat 11 val.toNat) := by
  rw [identOfNumber, BitVec.ofNat_toNat, BitVec.setWidth_eq_extractLsb' (by decide)]

theorem identOfNumber_ext (val : BitVec 32) : identOfNumber .ext val = .ext (BitVec.ofNat 29 val.toNat) := by
  rw [identOfNumber, BitVec.ofNat_toNat, BitVec.setWidth_eq_extractLsb' (by decide)]

/-- Standard needs both few digits and a small value (R69). -/
theorem selectFormat_std {ndig val : Nat} (hndig : ndig ≤ 4) (hval : val ≤ 0x7FF) : selectFormat ndig val = .std :=
  if_pos ⟨hndig, hval⟩

theorem selectFormat_ext {ndig val : Nat} (h : ¬ (ndig ≤ 4 ∧ val ≤ 0x7FF)) : selectFormat ndig val = .ext :=
  if_neg h

theorem hexOperand_outOfRange {ndig : BitVec 4} {val : BitVec 32} (hpos : 1 ≤ ndig.toNat) (hle : ndig.toNat ≤ 8)
    (hval : 0x1FFFFFFF < val.toNat) : hexOperand ndig val = .error .outOfRange := by
  rw [hexOperand, if_neg (not_or.mpr ⟨Nat.ne_of_gt hpos, hle.not_gt⟩), if_pos hval]

theorem hexOperand_std {ndig : BitVec 4} {val : BitVec 32} (hpos : 1 ≤ ndig.toNat) (hle : ndig.toNat ≤ 4)
    (hval : val.toNat ≤ 0x7FF) : hexOperand ndig val = .ok (.std (BitVec.ofNat 11 val.toNat)) := by
  rw [hexOperand_of_le (Nat.ne_of_gt hpos) (by omega) (by omega), selectFormat_std hle hval, identOfNumber_std]

theorem hexOperand_ext {ndig : BitVec 4} {val : BitVec 32} (hpos : 1 ≤ ndig.toNat) (hle : ndig.toNat ≤ 8)
    (hval : val.toNat ≤ 0x1FFFFFFF) (h : ¬ (ndig.toNat ≤ 4 ∧ val.toNat ≤ 0x7FF)) :
    hexOperand ndig val = .ok (.ext (BitVec.ofNat 29 val.toNat)) := by
  rw [hexOperand_of_le (Nat.ne_of_gt hpos) hle hval, selectFormat_ext h, identOfNumber_ext]

/-- Settles O10, by the order of R100: the digit count, the range, the format. -/
theorem ldhexConstructsFromHexText : Obligations.LdhexConstructsFromHexText := by
  intro ndig val s _
  refine ⟨rfl, (exec_ldhex_malformed_iff ndig val s).mpr, fun hpos hle hval => ?_, fun hpos hle hval => ?_,
    fun hpos hle hval hext => ?_⟩
  · exact construct_of_error (hexOperand_outOfRange hpos hle hval) s
  · exact construct_of_ok (hexOperand_std hpos hle hval) s
  · exact construct_of_ok (hexOperand_ext hpos hle hval (by omega)) s

/-- A raw number above the domain of its format (R101). -/
theorem rawOperand_outOfRange {fmt : Format} {val : BitVec 32} (h : maxOf fmt < val.toNat) :
    rawOperand fmt val = .error .outOfRange := if_pos h

theorem rawOperand_of_le {fmt : Format} {val : BitVec 32} (h : val.toNat ≤ maxOf fmt) :
    rawOperand fmt val = .ok (identOfNumber fmt val) := if_neg h.not_gt

/-- Settles O11, by the flag and the domain of its format. -/
theorem ldrawConstructsFromRawNumber : Obligations.LdrawConstructsFromRawNumber := by
  intro val s
  refine ⟨rfl, rfl, fun h => ?_, fun h => ?_, fun h => ?_, fun h => ?_⟩
  · exact construct_of_error (rawOperand_outOfRange (fmt := .std) h) s
  · exact construct_of_ok ((rawOperand_of_le h).trans (congrArg _ (identOfNumber_std val))) s
  · exact construct_of_error (rawOperand_outOfRange (fmt := .ext) h) s
  · exact construct_of_ok ((rawOperand_of_le h).trans (congrArg _ (identOfNumber_ext val))) s

/-! ### TOHEX after LDHEX -/

theorem exec_tohex_of_slot {s : State} {i : Ident} (h : s.slot = some i) :
    exec .tohex s = .next (after s s.slot (Response.string i.hexLen i.padded)) := by
  show withIdent s _ = _
  rw [withIdent_some _ h, respond_eq]

/-- The payload of TOHEX is the identifier's hex text (R78, R160). -/
theorem payload_tohex (i : Ident) : (Response.string i.hexLen i.padded).payload .tohex = .text (toHex i) := by
  cases i with
  | std x =>
    have hdata : (((paddedStd x).setWidth 32).setWidth 96).extractLsb' 0 16 = paddedStd x := by
      rw [BitVec.extractLsb'_setWidth_of_le (by decide), BitVec.extractLsb'_setWidth_of_le (by decide),
        BitVec.extractLsb'_eq_self]
    exact congrArg (Payload.text ∘ hexText 4) hdata
  | ext b =>
    have hdata : ((paddedExt b).setWidth 96).extractLsb' 0 32 = paddedExt b := by
      rw [BitVec.extractLsb'_setWidth_of_le (by decide), BitVec.extractLsb'_eq_self]
    exact congrArg (Payload.text ∘ hexText 8) hdata

/-- The operand of an accepted text is its digit count, 1 to 8, and its value (R67, R73). -/
theorem ldhexOfText_of_hexParse {t : Text} {n v : Nat} (h : hexParse t = some (n, v)) :
    1 ≤ n ∧ n ≤ 8 ∧ ∃ ndig val, ldhexOfText t = .ldhex ndig val ∧ ndig.toNat = n ∧ val.toNat = v := by
  by_cases hbad : stripHexMark t = [] ∨ ∃ c ∈ stripHexMark t, digitVal c = none
  · exact nomatch h.symm.trans (ldhexOfText_of_not_hex hbad).1
  push Not at hbad
  obtain ⟨hne, hdigits⟩ := hbad
  by_cases hlong : 8 < (stripHexMark t).length
  · exact nomatch h.symm.trans (ldhexOfText_of_long hdigits hlong).1
  · have hle := Nat.le_of_not_lt hlong
    cases h.symm.trans (hexParse_of_digits hne hdigits hle)
    exact ⟨List.length_pos_of_ne_nil hne, hle, ldhexOfText_of_digits hne hdigits hle⟩

theorem toHex_std_ofNat {v : Nat} (h : v ≤ 0x7FF) : toHex (.std (BitVec.ofNat 11 v)) = hexText 4 (BitVec.ofNat 16 v) := by
  refine congrArg (hexText 4) (BitVec.eq_of_toNat_eq ?_)
  rw [paddedStd_toNat, BitVec.toNat_ofNat, BitVec.toNat_ofNat]
  omega

theorem toHex_ext_ofNat {v : Nat} (h : v ≤ 0x1FFFFFFF) :
    toHex (.ext (BitVec.ofNat 29 v)) = hexText 8 (BitVec.ofNat 32 v) := by
  refine congrArg (hexText 8) (BitVec.eq_of_toNat_eq ?_)
  rw [paddedExt_toNat, BitVec.toNat_ofNat, BitVec.toNat_ofNat]
  omega

/-- The identifier of an accepted text in range, by its hex text: the format sets the width (R65, R69, R106). -/
theorem hexOperand_toHex {ndig : BitVec 4} {val : BitVec 32} (hpos : 1 ≤ ndig.toNat) (hle : ndig.toNat ≤ 8)
    (hval : val.toNat ≤ 0x1FFFFFFF) : ∃ i, hexOperand ndig val = .ok i ∧
      toHex i = if ndig.toNat ≤ 4 ∧ val.toNat ≤ 0x7FF then hexText 4 (BitVec.ofNat 16 val.toNat)
        else hexText 8 (BitVec.ofNat 32 val.toNat) := by
  by_cases hstd : ndig.toNat ≤ 4 ∧ val.toNat ≤ 0x7FF
  · exact ⟨_, hexOperand_std hpos hstd.1 hstd.2, (toHex_std_ofNat hstd.2).trans (if_pos hstd).symm⟩
  · exact ⟨_, hexOperand_ext hpos hle hval hstd, (toHex_ext_ofNat hval).trans (if_neg hstd).symm⟩

/-- Settles O37: LDHEX holds the identifier of the text, and TOHEX renders the identifier held. -/
theorem tohexAfterLdhexRendersThePaddedText : Obligations.TohexAfterLdhexRendersThePaddedText := by
  intro t n v s hparse hv
  obtain ⟨hpos, hle, ndig, val, e, rfl, rfl⟩ := ldhexOfText_of_hexParse hparse
  obtain ⟨i, hok, htext⟩ := hexOperand_toHex hpos hle hv
  rw [e, ← htext]
  exact ⟨_, _, construct_of_ok hok s, exec_tohex_of_slot rfl, payload_tohex i⟩

end Sys2Proof.Proofs

/-! PROOFS. The field reads (spec/41_field_read.md): what a read answers by what the slot holds, the numbers it answers,
and the laws of the derived values (R134). -/

namespace Sys2Proof.Proofs

open Sys2Proof.Machine Sys2Proof.Safety Sys2Proof.Laws

/-! ### What a read answers -/

section
variable {s : State} {w n : Nat}

/-- A read of either format without an identifier (R133). -/
theorem withIdent_answers_none {k : Ident → Host.Outcome State Fault Refusal} (h : s.slot = none) :
    withIdent s k = .next (after s none (errorIs .noIdentifier)) := by
  rw [withIdent_none k h, raise_eq, h]

/-- A read of either format answers its value of the identifier held. -/
theorem withIdent_answers_number {i : Ident} {v : Ident → BitVec w} (h : s.slot = some i) (hv : (v i).toNat = n) :
    withIdent s (fun j => respond (Response.number (v j)) s) = .next (after s (some i) (okNumber n)) := by
  rw [withIdent_some _ h, respond_eq, h, number_eq, hv]

/-- An Extended-only read without an identifier (R133). -/
theorem withExt_answers_none {k : BitVec 29 → Host.Outcome State Fault Refusal} (h : s.slot = none) :
    withExt s k = .next (after s none (errorIs .noIdentifier)) := by
  rw [withExt_none k h, raise_eq, h]

/-- An Extended-only read of a Standard identifier (R133). -/
theorem withExt_answers_std {k : BitVec 29 → Host.Outcome State Fault Refusal} {x : BitVec 11}
    (h : s.slot = some (.std x)) : withExt s k = .next (after s (some (.std x)) (errorIs .wrongFormat)) := by
  rw [withExt_std k h, raise_eq, h]

/-- An Extended-only read answers its value of the bits held. -/
theorem withExt_answers_number {b : BitVec 29} {v : BitVec 29 → BitVec w} (h : s.slot = some (.ext b))
    (hv : (v b).toNat = n) :
    withExt s (fun c => respond (Response.number (v c)) s) = .next (after s (some (.ext b)) (okNumber n)) := by
  rw [withExt_ext _ h, respond_eq, h, number_eq, hv]

end

/-! ### The numbers answered -/

/-- The priority is the topmost field in either format, so nothing above it is cut off (R61, R62). -/
theorem sPrio_toNat_eq_div (x : BitVec 11) : (sPrio x).toNat = x.toNat / 2 ^ 8 := by
  rw [sPrio_toNat]
  omega

theorem xPrio_toNat_eq_div (b : BitVec 29) : (xPrio b).toNat = b.toNat / 2 ^ 26 := by
  rw [xPrio_toNat]
  omega

/-- The source address is the bottom byte in either format (R61, R62). -/
theorem sSa_toNat_eq_mod (x : BitVec 11) : (sSa x).toNat = x.toNat % 2 ^ 8 := by
  rw [sSa_toNat, Nat.pow_zero, Nat.div_one]

theorem xSa_toNat_eq_mod (b : BitVec 29) : (xSa b).toNat = b.toNat % 2 ^ 8 := by
  rw [xSa_toNat, Nat.pow_zero, Nat.div_one]

/-- The PDU type of an identifier as GTYPE's number (R127, R128). -/
theorem pduType_xPf_code_toNat (b : BitVec 29) :
    (pduType (xPf b)).code.toNat = if b.toNat / 2 ^ 16 % 2 ^ 8 < 240 then 1 else 2 := by
  rw [pduType_code, xPf_toNat]
  split <;> rfl

theorem destAddr_of_type1 {b : BitVec 29} (h : pduType (xPf b) = .type1) : destAddr b = xPs b := by
  rw [destAddr, h]

theorem destAddr_of_type2 {b : BitVec 29} (h : pduType (xPf b) = .type2) : destAddr b = 255#8 := by
  rw [destAddr, h, Config.daGlobal]

/-- The destination address as a number (R129). -/
theorem destAddr_toNat (b : BitVec 29) :
    (destAddr b).toNat = if b.toNat / 2 ^ 16 % 2 ^ 8 < 240 then b.toNat / 2 ^ 8 % 2 ^ 8 else 255 := by
  rw [← xPf_toNat]
  by_cases hpf : (xPf b).toNat < 240
  · rw [if_pos hpf, destAddr_of_type1 ((pduType_eq_type1 _).mpr hpf), xPs_toNat]
  · rw [if_neg hpf, destAddr_of_type2 ((pduType_eq_type2 _).mpr (Nat.le_of_not_lt hpf))]
    rfl

/-- The PGN as the identifier's bits 25..8, the low byte 0 under type 1 (R130). -/
theorem pgn_toNat_eq_bits (b : BitVec 29) :
    (pgn b).toNat = if b.toNat / 2 ^ 16 % 2 ^ 8 < 240 then b.toNat / 2 ^ 16 % 2 ^ 10 * 2 ^ 8
      else b.toNat / 2 ^ 8 % 2 ^ 18 := by
  rw [pgn_toNat, xEdp_toNat, xDp_toNat, xPf_toNat, xPs_toNat]
  split <;> omega

/-! ### The reads -/

/-- Settles O19: bits 25..8 of an Extended identifier, the low byte by the PDU type. -/
theorem pgnRead : Obligations.PgnRead :=
  ⟨rfl, fun _ => ⟨withExt_answers_none, fun _ => withExt_answers_std,
    fun b h => withExt_answers_number h (pgn_toNat_eq_bits b)⟩⟩

/-- Settles O20: a read ends in one response, and no reading command's response carries the diagnostic. -/
theorem readsWriteNothing : Obligations.ReadsWriteNothing := fun _ s hi => exec_read_onlyAnswers hi s

/-- Settles O15: each of the three is in both formats one field of the identifier. -/
theorem formatPriorityAndSourceReads : Obligations.FormatPriorityAndSourceReads := by
  refine ⟨rfl, rfl, rfl, fun s => ⟨fun h => ?_, fun x h => ?_, fun b h => ?_⟩⟩
  · exact ⟨withIdent_answers_none h, withIdent_answers_none h, withIdent_answers_none h⟩
  · exact ⟨withIdent_answers_number h rfl, withIdent_answers_number h (sPrio_toNat_eq_div x),
      withIdent_answers_number h (sSa_toNat_eq_mod x)⟩
  · exact ⟨withIdent_answers_number h rfl, withIdent_answers_number h (xPrio_toNat_eq_div b),
      withIdent_answers_number h (xSa_toNat_eq_mod b)⟩

/-- Settles O16: each of the four is its bit range of the Extended identifier. -/
theorem extendedFieldReads : Obligations.ExtendedFieldReads := by
  refine ⟨rfl, rfl, rfl, rfl, fun s => ⟨fun h => ?_, fun x h => ?_, fun b h => ?_⟩⟩
  · exact ⟨withExt_answers_none h, withExt_answers_none h, withExt_answers_none h, withExt_answers_none h⟩
  · exact ⟨withExt_answers_std h, withExt_answers_std h, withExt_answers_std h, withExt_answers_std h⟩
  · exact ⟨withExt_answers_number h (xEdp_toNat b), withExt_answers_number h (xDp_toNat b),
      withExt_answers_number h (xPf_toNat b), withExt_answers_number h (xPs_toNat b)⟩

/-- Settles O17: the type is decided by `pf` against 240. -/
theorem pduTypeRead : Obligations.PduTypeRead :=
  ⟨rfl, fun _ => ⟨withExt_answers_none, fun _ => withExt_answers_std,
    fun b h => withExt_answers_number h (pduType_xPf_code_toNat b)⟩⟩

/-- Settles O18: `ps` under type 1, the global address under type 2. -/
theorem destinationAddressRead : Obligations.DestinationAddressRead :=
  ⟨rfl, fun _ => ⟨withExt_answers_none, fun _ => withExt_answers_std,
    fun b h => withExt_answers_number h (destAddr_toNat b)⟩⟩

/-! ### The laws of the derived values -/

/-- An Extended value is its six fields side by side (R134 (a)). -/
theorem ext_eq_append (b : BitVec 29) : b = xPrio b ++ xEdp b ++ xDp b ++ xPf b ++ xPs b ++ xSa b := by
  refine BitVec.eq_of_toNat_eq ?_
  rw [ext_eq_sum b]
  simp only [append_toNat]
  ring

/-- A PGN has 18 bits (R134 (d)). -/
theorem pgn_toNat_le (b : BitVec 29) : (pgn b).toNat ≤ 0x03FFFF := by
  rw [pgn_toNat_eq_bits]
  split <;> omega

/-- Under type 1 the low byte of the PGN is 0 (R134 (e)). -/
theorem pgn_toNat_mod_of_type1 {b : BitVec 29} (h : pduType (xPf b) = .type1) : (pgn b).toNat % 2 ^ 8 = 0 := by
  rw [pgn_toNat, if_pos ((pduType_eq_type1 _).mp h)]
  omega

/-- Above its low byte a PGN is edp, dp and pf, whatever the type (R63). -/
theorem pgn_toNat_div (b : BitVec 29) :
    (pgn b).toNat / 2 ^ 8 = (xEdp b).toNat * 2 ^ 9 + (xDp b).toNat * 2 ^ 8 + (xPf b).toNat := by
  rw [pgn_toNat]
  split <;> omega

theorem pgnSplit_pgn_edp (b : BitVec 29) : (pgnSplit (pgn b)).edp = xEdp b :=
  extract_of_toNat (by have := pgn_toNat_div b; omega)

theorem pgnSplit_pgn_dp (b : BitVec 29) : (pgnSplit (pgn b)).dp = xDp b :=
  extract_of_toNat (by have := pgn_toNat_div b; omega)

theorem pgnSplit_pgn_pf (b : BitVec 29) : (pgnSplit (pgn b)).pf = xPf b :=
  extract_of_toNat (by have := pgn_toNat_div b; omega)

theorem pgnSplit_pgn_ps (b : BitVec 29) :
    (pgnSplit (pgn b)).ps = if pduType (xPf b) = .type2 then xPs b else 0#8 := by
  refine extract_of_toNat ?_
  rw [pgn_toNat]
  by_cases hpf : (xPf b).toNat < 240
  · rw [if_pos hpf, (pduType_eq_type1 _).mpr hpf, if_neg (by decide)]
    simp only [BitVec.toNat_ofNat]
    omega
  · rw [if_neg hpf, if_pos ((pduType_eq_type2 _).mpr (Nat.le_of_not_lt hpf))]
    omega

/-- Decomposing a PGN gives the fields it was made of, `ps` only under type 2 (R134 (f)). -/
theorem pgnSplit_pgn (b : BitVec 29) :
    pgnSplit (pgn b) = ⟨xEdp b, xDp b, xPf b, if pduType (xPf b) = .type2 then xPs b else 0#8⟩ := by
  rw [← pgnSplit_pgn_edp, ← pgnSplit_pgn_dp, ← pgnSplit_pgn_ps, ← pgnSplit_pgn_pf]

/-- Settles O52, law by law of R134; the type of the PGN is that of its `pf`, which is the identifier's. -/
theorem lawsOfTheDerivedValues : Obligations.LawsOfTheDerivedValues := fun b =>
  ⟨ext_eq_append b, fun pf => (pduType_eq_type1 pf).trans Nat.lt_succ_iff, destAddr_of_type2, pgn_toNat_le b,
    pgn_toNat_mod_of_type1, pgnSplit_pgn b, congrArg pduType (pgnSplit_pgn_pf b)⟩

end Sys2Proof.Proofs

/-! PROOFS. The field writes (spec/42_field_write.md): how a write ends by what the slot holds, what it does to the
derived values (R151), and which PGN values are rejected (R148 to R150, R213). -/

namespace Sys2Proof.Proofs

open Sys2Proof.Machine Sys2Proof.Safety Sys2Proof.Laws

/-! ### How a field write ends -/

section
variable {s : State}

/-- A write that serves both formats holds its identifier and answers without the diagnostic (R141, R146). -/
theorem withIdent_writes {f : Ident → Ident} {i j : Ident} (h : s.slot = some i) (hf : f i = j) :
    withIdent s (fun k => publish false (f k) s) = .next (after s (some j) (okDone false)) := by
  rw [withIdent_some _ h, publish_eq, hf]

/-- An Extended-only write holds its bits and answers with its diagnostic (R140). -/
theorem withExt_writes {d : BitVec 29 → Bool} {f : BitVec 29 → BitVec 29} {b c : BitVec 29} {e : Bool}
    (h : s.slot = some (.ext b)) (hf : f b = c) (hd : d b = e) :
    withExt s (fun a => publish (d a) (.ext (f a)) s) = .next (after s (some (.ext c)) (okDone e)) := by
  rw [withExt_ext _ h, publish_eq, hf, hd]

/-- A write leaves one value: two accounts of its outcome name the same bits. -/
theorem written_bits_eq {o : Host.Outcome State Fault Refusal} {b c : BitVec 29} {r r' : Response}
    (h : o = .next (after s (some (.ext c)) r)) (h' : o = .next (after s (some (.ext b)) r')) : c = b := by
  obtain ⟨hslot, -⟩ := after_inj (Host.Outcome.next.inj (h.symm.trans h'))
  exact Ident.ext.inj (Option.some.inj hslot)

end

/-- Settles O21: each of the two is one masked write in either format. -/
theorem priorityAndSourceWrites : Obligations.PriorityAndSourceWrites := by
  refine fun p v s => ⟨rfl, rfl, fun h => ?_, fun x h => ?_, fun b h => ?_⟩
  · exact ⟨withIdent_answers_none h, withIdent_answers_none h⟩
  · exact ⟨withIdent_writes h (congrArg Ident.std (putField_ofNat x 8 p (by decide))),
      withIdent_writes h (congrArg Ident.std (putField_ofNat x 0 v (by decide)))⟩
  · exact ⟨withIdent_writes h (congrArg Ident.ext (putField_ofNat b 26 p (by decide))),
      withIdent_writes h (congrArg Ident.ext (putField_ofNat b 0 v (by decide)))⟩

/-- Settles O22: each of the four is one masked write of an Extended identifier. -/
theorem extendedFieldWrites : Obligations.ExtendedFieldWrites := by
  refine fun e v s => ⟨rfl, rfl, rfl, rfl, fun h => ?_, fun x h => ?_, fun b h => ?_⟩
  · exact ⟨withExt_answers_none h, withExt_answers_none h, withExt_answers_none h, withExt_answers_none h⟩
  · exact ⟨withExt_answers_std h, withExt_answers_std h, withExt_answers_std h, withExt_answers_std h⟩
  · exact ⟨withExt_writes h (putField_ofNat b 25 e (by decide)) rfl,
      withExt_writes h (putField_ofNat b 24 e (by decide)) rfl,
      withExt_writes h (putField_ofNat b 16 v (by decide)) rfl,
      withExt_writes h (putField_ofNat b 8 v (by decide)) rfl⟩

/-- The diagnostic of a destination write as a comparison of `pf` (R128, R147). -/
theorem destWriteDiag_eq (b : BitVec 29) : destWriteDiag b = decide (240 ≤ b.toNat / 2 ^ 16 % 2 ^ 8) := by
  rw [destWriteDiag, beq_eq_decide, ← xPf_toNat]
  exact decide_eq_decide.mpr (pduType_eq_type2 _)

/-- Settles O23: the write is that of `ps`, the diagnostic is decided by `pf`. -/
theorem destinationAddressWrite : Obligations.DestinationAddressWrite := fun v _ =>
  ⟨rfl, withExt_answers_none, fun _ => withExt_answers_std,
    fun b h => withExt_writes h (putField_ofNat b 8 v (by decide)) (destWriteDiag_eq b)⟩

/-! ### The PGN write -/

section
variable {v : BitVec 24} {b : BitVec 29} {s : State}

/-- An accepted PGN write in the words claims use (R148). -/
theorem exec_spgn_writes (hs : s.slot = some (.ext b)) (hv : PgnAcceptable v.toNat) :
    exec (.spgn v) s = .next (after s (some (.ext (putPgnParts b v))) (okDone false)) :=
  (exec_spgn_accepted hs hv).trans (publish_eq _ _ _)

/-- A rejected SPGN under ROLLBACK leaves the identifier as it was (R148). -/
theorem exec_spgn_rejected_rollback (hs : s.slot = some (.ext b)) (hp : s.policy = .rollback)
    (hv : ¬ PgnAcceptable v.toNat) : exec (.spgn v) s = .next (after s (some (.ext b)) (errorIs .invalidPgn)) := by
  rw [exec_spgn_rejected hs hv, afterRejectedPgn_rollback _ hp, raise_eq, hs]

/-- A PGN write that answered OK had an acceptable operand and wrote its four fields (R148, R149). -/
theorem of_exec_spgn_ok {c : BitVec 29} {d : Bool} (hs : s.slot = some (.ext b))
    (h : exec (.spgn v) s = .next (after s (some (.ext c)) (okDone d))) :
    PgnAcceptable v.toNat ∧ c = putPgnParts b v := by
  by_cases hv : PgnAcceptable v.toNat
  · exact ⟨hv, written_bits_eq h (exec_spgn_writes hs hv)⟩
  · obtain ⟨-, hr⟩ := after_inj (Host.Outcome.next.inj (h.symm.trans (exec_spgn_rejected_by_level hs hv)))
    cases congrArg Response.status hr

end

/-- Settles O24, by whether the operand round-trips and, if not, by the policy. -/
theorem pgnWrite : Obligations.PgnWrite := by
  refine fun v s => ⟨rfl, withExt_answers_none, fun _ => withExt_answers_std, fun b h => ⟨fun hv => ?_, ?_, ?_⟩⟩
  · rw [exec_spgn_writes h hv, putPgnParts_ofNat, Nat.mod_eq_of_lt hv.1]
  · exact fun hv hp => exec_spgn_rejected_rollback h hp hv
  · exact fun hv hp => putPgnParts_ofNat b v ▸ exec_spgn_rejected_keepPartial h hp hv

/-- The four parts of a PGN value side by side are its low 18 bits (R64). -/
theorem pgnSplit_append (v : BitVec 24) :
    (pgnSplit v).edp ++ (pgnSplit v).dp ++ (pgnSplit v).pf ++ (pgnSplit v).ps = v.extractLsb' 0 18 := by
  refine BitVec.eq_of_toNat_eq ?_
  rw [append_toNat, append_toNat, append_toNat, pgnSplit_edp_toNat, pgnSplit_dp_toNat, pgnSplit_pf_toNat,
    pgnSplit_ps_toNat, extract_toNat]
  omega

/-- Settles O25: what each write leaves, and its fields by the laws of the layout. -/
theorem fieldWritesKeepTheOtherFields : Obligations.FieldWritesKeepTheOtherFields := by
  refine fun s => ⟨fun x h => ⟨fun v => ?_, fun v => ?_⟩, fun b h =>
    ⟨fun v => ?_, fun v => ?_, fun v => ?_, fun v => ?_, fun v => ?_, fun v => ?_, fun v => ?_, fun v hv => ?_⟩⟩
  · exact ⟨putSPrio x v, withIdent_writes h rfl, by simp⟩
  · exact ⟨putSSa x v, withIdent_writes h rfl, by simp⟩
  · exact ⟨putXPrio b v, withIdent_writes h rfl, by simp⟩
  · exact ⟨putXEdp b v, withExt_writes h rfl rfl, by simp⟩
  · exact ⟨putXDp b v, withExt_writes h rfl rfl, by simp⟩
  · exact ⟨putXPf b v, withExt_writes h rfl rfl, by simp⟩
  · exact ⟨putXPs b v, withExt_writes h rfl rfl, by simp⟩
  · exact ⟨putXSa b v, withIdent_writes h rfl, by simp⟩
  · exact ⟨putXPs b v, destWriteDiag b, withExt_writes h rfl rfl, by simp⟩
  · exact ⟨putPgnParts b v, exec_spgn_writes h hv, by simp [pgnSplit_append]⟩

/-! ### The derived values after a write -/

/-- The destination address by `pf` (R129). -/
theorem destAddr_eq (b : BitVec 29) : destAddr b = if (xPf b).toNat < 240 then xPs b else 255#8 := by
  by_cases hpf : (xPf b).toNat < 240
  · rw [if_pos hpf, destAddr_of_type1 ((pduType_eq_type1 _).mpr hpf)]
  · rw [if_neg hpf, destAddr_of_type2 ((pduType_eq_type2 _).mpr (Nat.le_of_not_lt hpf))]

/-- Two values with the same `pf` and `ps` have the same destination address (R129). -/
theorem destAddr_kept {b c : BitVec 29} (hpf : xPf c = xPf b) (hps : xPs c = xPs b) : destAddr c = destAddr b := by
  rw [destAddr_eq, destAddr_eq, hpf, hps]

/-- Two values with the same PGN fields have the same PGN (R130). -/
theorem pgn_kept {b c : BitVec 29} (hedp : xEdp c = xEdp b) (hdp : xDp c = xDp b) (hpf : xPf c = xPf b)
    (hps : xPs c = xPs b) : pgn c = pgn b := by
  refine BitVec.eq_of_toNat_eq ?_
  rw [pgn_toNat, pgn_toNat, hedp, hdp, hpf, hps]

/-- The part of a PGN below edp and dp has 16 bits. -/
theorem pgn_low_lt (b : BitVec 29) :
    (xPf b).toNat * 2 ^ 8 + (if (xPf b).toNat < 240 then 0 else (xPs b).toNat) < 2 ^ 16 := by
  have hpf := (xPf b).isLt
  have hps := (xPs b).isLt
  split <;> omega

theorem pgn_putXEdp_toNat (b : BitVec 29) (v : BitVec 1) :
    (pgn (putXEdp b v)).toNat = replacedBits (pgn b).toNat 17 1 v.toNat := by
  have hlow := pgn_low_lt b
  have hdp := (xDp b).isLt
  have hedp := (xEdp b).isLt
  rw [replacedBits, pgn_toNat, pgn_toNat, xEdp_putXEdp, xDp_putXEdp, xPf_putXEdp, xPs_putXEdp]
  omega

theorem pgn_putXDp_toNat (b : BitVec 29) (v : BitVec 1) :
    (pgn (putXDp b v)).toNat = replacedBits (pgn b).toNat 16 1 v.toNat := by
  have hlow := pgn_low_lt b
  have hdp := (xDp b).isLt
  rw [replacedBits, pgn_toNat, pgn_toNat, xEdp_putXDp, xDp_putXDp, xPf_putXDp, xPs_putXDp]
  omega

/-- The new `pf` decides whether the old `ps` is in the PGN (R151). -/
theorem pgn_putXPf_toNat (b : BitVec 29) (v : BitVec 8) :
    (pgn (putXPf b v)).toNat = (pgn b).toNat / 2 ^ 16 * 2 ^ 16 + v.toNat * 2 ^ 8 +
      (if v.toNat < 240 then 0 else (xPs b).toNat) := by
  have hlow := pgn_low_lt b
  rw [pgn_toNat, pgn_toNat, xEdp_putXPf, xDp_putXPf, xPf_putXPf, xPs_putXPf]
  omega

/-- `ps` is the low byte of the PGN under type 2 only (R151). -/
theorem pgn_putXPs_toNat (b : BitVec 29) (v : BitVec 8) :
    (pgn (putXPs b v)).toNat =
      if (xPf b).toNat < 240 then (pgn b).toNat else replacedBits (pgn b).toNat 0 8 v.toNat := by
  have hps := (xPs b).isLt
  rw [replacedBits, pgn_toNat, pgn_toNat, xEdp_putXPs, xDp_putXPs, xPf_putXPs, xPs_putXPs]
  split <;> omega

/-- An acceptable PGN of type 1 leaves 0 in `ps`, so the destination is 0 (R149, R151). -/
theorem destAddr_putPgnParts (b : BitVec 29) {v : BitVec 24} (hv : PgnAcceptable v.toNat) :
    destAddr (putPgnParts b v) = if v.toNat / 2 ^ 8 % 2 ^ 8 < 240 then 0#8 else 255#8 := by
  rw [destAddr_eq, xPf_putPgnParts, xPs_putPgnParts, pgnSplit_pf_toNat]
  refine ite_congr rfl (fun hpf => BitVec.eq_of_toNat_eq ?_) fun _ => rfl
  rw [pgnSplit_ps_toNat, BitVec.toNat_ofNat]
  obtain ⟨-, htype2 | hlow⟩ := hv <;> omega

/-- Settles O26, row by row: the outcome names the written bits, and their derived values are those of the fields. -/
theorem computedValuesFollowTheWrites : Obligations.ComputedValuesFollowTheWrites := by
  refine fun b c s d hs => ⟨fun v h => ?_, fun v h => ?_, fun v h => ?_, fun v h => ?_, fun v h => ?_, fun v h => ?_,
    fun v h => ?_⟩
  · obtain rfl : c = putXPrio b v := written_bits_eq h (withIdent_writes hs rfl)
    exact ⟨congrArg pduType (xPf_putXPrio b v), destAddr_kept (xPf_putXPrio b v) (xPs_putXPrio b v),
      pgn_kept (xEdp_putXPrio b v) (xDp_putXPrio b v) (xPf_putXPrio b v) (xPs_putXPrio b v)⟩
  · obtain rfl : c = putXSa b v := written_bits_eq h (withIdent_writes hs rfl)
    exact ⟨congrArg pduType (xPf_putXSa b v), destAddr_kept (xPf_putXSa b v) (xPs_putXSa b v),
      pgn_kept (xEdp_putXSa b v) (xDp_putXSa b v) (xPf_putXSa b v) (xPs_putXSa b v)⟩
  · obtain rfl : c = putXEdp b v := written_bits_eq h (withExt_writes hs rfl rfl)
    exact ⟨congrArg pduType (xPf_putXEdp b v), destAddr_kept (xPf_putXEdp b v) (xPs_putXEdp b v),
      pgn_putXEdp_toNat b v⟩
  · obtain rfl : c = putXDp b v := written_bits_eq h (withExt_writes hs rfl rfl)
    exact ⟨congrArg pduType (xPf_putXDp b v), destAddr_kept (xPf_putXDp b v) (xPs_putXDp b v),
      pgn_putXDp_toNat b v⟩
  · obtain rfl : c = putXPf b v := written_bits_eq h (withExt_writes hs rfl rfl)
    exact ⟨congrArg pduType (xPf_putXPf b v), by rw [destAddr_eq, xPf_putXPf, xPs_putXPf], pgn_putXPf_toNat b v⟩
  · obtain rfl : c = putXPs b v := h.elim (written_bits_eq · (withExt_writes hs rfl rfl))
      (written_bits_eq · (withExt_writes hs rfl rfl))
    exact ⟨congrArg pduType (xPf_putXPs b v), by rw [destAddr_eq, xPf_putXPs, xPs_putXPs], pgn_putXPs_toNat b v⟩
  · obtain ⟨hv, rfl⟩ := of_exec_spgn_ok hs h
    exact ⟨congrArg pduType (xPf_putPgnParts b v), destAddr_putPgnParts b hv, (pgn_putPgnParts_eq_iff b v).mpr hv⟩

/-! ### Which PGN values round-trip -/

/-- GPGN answers the PGN of the bits held (R132). -/
theorem exec_gpgn_of_slot {t : State} {c : BitVec 29} (h : t.slot = some (.ext c)) :
    exec .gpgn t = .next (after t t.slot (okNumber (pgn c).toNat)) :=
  h ▸ withExt_answers_number h rfl

/-- Settles O27: an accepted write is one that reads back. -/
theorem pgnWriteReadsBack : Obligations.PgnWriteReadsBack := by
  refine fun v b s hs => ⟨fun hv => ?_, fun hv => ⟨_, exec_spgn_rejected_by_level hs hv⟩⟩
  have hread : pgn (putPgnParts b v) = v := (pgn_putPgnParts_eq_iff b v).mpr hv
  exact ⟨_, exec_spgn_writes hs hv, by rw [exec_gpgn_of_slot (c := putPgnParts b v) rfl, hread]⟩

/-- The complement of the acceptable values in the words of R149. -/
theorem not_pgnAcceptable_iff (n : Nat) :
    ¬ PgnAcceptable n ↔ n / 2 ^ 18 ≠ 0 ∨ (n / 2 ^ 8 % 2 ^ 8 < 240 ∧ n % 2 ^ 8 ≠ 0) := by
  unfold PgnAcceptable
  omega

/-- A command that succeeds on the acceptable values and answers InvalidPgn on the others answers InvalidPgn exactly as
R149 says. -/
theorem answers_invalidPgn_iff {o : Host.Outcome State Fault Refusal} {s : State} {n : Nat}
    (hok : PgnAcceptable n → ∃ slot, o = .next (after s slot (okDone false)))
    (hrej : ¬ PgnAcceptable n → ∃ slot, o = .next (after s slot (errorIs .invalidPgn))) :
    (∃ slot, o = .next (after s slot (errorIs .invalidPgn))) ↔
      n / 2 ^ 18 ≠ 0 ∨ (n / 2 ^ 8 % 2 ^ 8 < 240 ∧ n % 2 ^ 8 ≠ 0) := by
  rw [← not_pgnAcceptable_iff]
  refine ⟨fun ⟨slot, h⟩ hn => ?_, hrej⟩
  obtain ⟨slot', h'⟩ := hok hn
  obtain ⟨-, hr⟩ := after_inj (Host.Outcome.next.inj (h.symm.trans h'))
  cases congrArg Response.status hr

/-- Settles O28: both commands accept exactly the values that read back. -/
theorem pgnIsRejectedExactlyWhenItCannotRoundTrip : Obligations.PgnIsRejectedExactlyWhenItCannotRoundTrip := by
  refine fun v s => ⟨fun b hs => ?_, fun prio sa da => ?_⟩
  · exact answers_invalidPgn_iff (fun hv => ⟨_, exec_spgn_writes hs hv⟩)
      (fun hv => ⟨_, exec_spgn_rejected_by_level hs hv⟩)
  · exact answers_invalidPgn_iff (fun hv => ⟨_, construct_of_ok (fieldsOperand_accepted hv) s⟩)
      (fun hv => ⟨_, construct_of_error (fieldsOperand_rejected hv) s⟩)

/-- Settles O44: the four fields are written, and a value that is not acceptable does not read back. -/
theorem rejectedPgnWriteUnderPartial : Obligations.RejectedPgnWriteUnderPartial := fun v b _ hs hp hv =>
  ⟨putPgnParts b v, exec_spgn_rejected_keepPartial hs hp hv, xPrio_putPgnParts b v, xSa_putPgnParts b v,
    (pgn_putPgnParts_eq_iff b v).not.mpr hv, xEdp_putPgnParts b v, xDp_putPgnParts b v, xPf_putPgnParts b v,
    xPs_putPgnParts b v⟩

end Sys2Proof.Proofs

/-! PROOFS. Serialisation and comparison (spec/43_serialize.md): the characters of the hex and binary texts (R66, R68),
what TOHEX and TOBIN answer, and the comparison of two identifiers by their texts. -/

namespace Sys2Proof.Proofs

open Sys2Proof.Machine Sys2Proof.Safety Sys2Proof.Laws

/-! ### The characters of a rendered text -/

/-- The `k`-th character of a hex text is the digit of the `k`-th nibble from the top (R66). -/
theorem hexText_getElem? {n k : Nat} (v : BitVec (4 * n)) (hk : k < n) :
    (hexText n v)[k]? = some ("0123456789ABCDEF".toList.getD (v.toNat / 16 ^ (n - 1 - k) % 16) '0') := by
  have hplace : 2 ^ (4 * (n - k - 1)) = 16 ^ (n - 1 - k) := by rw [Nat.pow_mul, Nat.sub_right_comm]
  have hdigit : hexDigit (v.extractLsb' (4 * (n - k - 1)) 4) =
      "0123456789ABCDEF".toList.getD (v.toNat / 16 ^ (n - 1 - k) % 16) '0' := by
    rw [hexDigit, extract_toNat, hplace]
    rfl
  rw [hexText, List.getElem?_map, List.getElem?_range hk, Option.map_some, hdigit]

theorem binText_length {n : Nat} (v : BitVec n) : (binText n v).length = n := by simp [binText]

/-- The `k`-th character of a binary text is the `k`-th bit from the top (R68). -/
theorem binText_getElem? {n k : Nat} (v : BitVec n) (hk : k < n) :
    (binText n v)[k]? = some (if v.toNat / 2 ^ (n - 1 - k) % 2 = 1 then '1' else '0') := by
  rw [binText, List.getElem?_map, List.getElem?_range hk, Option.map_some, BitVec.getLsbD,
    Nat.testBit_eq_decide_div_mod_eq]
  simp only [decide_eq_true_eq]

/-! ### TOHEX and TOBIN -/

/-- Zero-extension to the register keeps a Standard identifier's number (R22). -/
theorem bits_std_toNat (x : BitVec 11) : (Ident.std x).bits.toNat = x.toNat :=
  BitVec.toNat_setWidth_of_le (by decide)

section
variable {s : State} {i : Ident}

/-- TOHEX answers the identifier's number and its digit count (R161). -/
theorem exec_tohex_answers (h : s.slot = some i) :
    exec .tohex s = .next (after s (some i) (okString i.hexLen i.bits.toNat)) := by
  rw [exec_tohex_of_slot h, h, string_eq, padded_toNat]

/-- TOBIN answers the identifier's number and its bit count (R162). -/
theorem exec_tobin_answers (h : s.slot = some i) :
    exec .tobin s = .next (after s (some i) (okString i.width i.bits.toNat)) := by
  show withIdent s _ = _
  rw [withIdent_some _ h, respond_eq, h, string_eq]

end

/-- TOHEX's carrier of an identifier's number reads as its hex text (R78). -/
theorem payload_tohex_okString (i : Ident) : (okString i.hexLen i.bits.toNat).payload .tohex = .text (toHex i) := by
  rw [← padded_toNat, ← string_eq, payload_tohex]

/-- TOBIN's carrier of `n` bits reads as their binary text: `len` holds `n` uncut (R78). -/
theorem payload_tobin_okString {n : Nat} (hn : n < 2 ^ 6) (v : BitVec n) :
    (okString n v.toNat).payload .tobin = .text (binText n v) := by
  have hlen : (BitVec.ofNat 6 n).toNat = n := by rw [BitVec.toNat_ofNat, Nat.mod_eq_of_lt hn]
  rw [← string_eq]
  show Payload.text (binText (BitVec.ofNat 6 n).toNat ((v.setWidth 96).extractLsb' 0 (BitVec.ofNat 6 n).toNat)) = _
  rw [hlen, BitVec.extractLsb'_setWidth_of_le (by omega), BitVec.extractLsb'_eq_self]

/-- Settles O31: the carrier reads as the identifier's hex text, whose digits are the nibbles of the padded word. -/
theorem tohexRendersThePaddedWord : Obligations.TohexRendersThePaddedWord := by
  refine ⟨rfl, fun s => ⟨withIdent_answers_none, fun x h => ?_, fun b h => ?_⟩⟩
  · rw [← bits_std_toNat]
    refine ⟨exec_tohex_answers h, _, payload_tohex_okString (.std x), rfl, hexText_length _, fun k hk => ?_⟩
    rw [bits_std_toNat, ← paddedStd_toNat]
    exact hexText_getElem? _ hk
  · refine ⟨exec_tohex_answers h, _, payload_tohex_okString (.ext b), rfl, hexText_length _, fun k hk => ?_⟩
    rw [← paddedExt_toNat]
    exact hexText_getElem? _ hk

/-- Settles O32: the carrier reads as the binary text of the identifier's own bits. -/
theorem tobinRendersTheRawBits : Obligations.TobinRendersTheRawBits := by
  refine ⟨rfl, fun s => ⟨withIdent_answers_none, fun x h => ?_, fun b h => ?_⟩⟩
  · exact ⟨bits_std_toNat x ▸ exec_tobin_answers h, _, payload_tobin_okString (by decide) x, binText_length x,
      fun k => binText_getElem? x⟩
  · exact ⟨exec_tobin_answers h, _, payload_tobin_okString (by decide) b, binText_length b,
      fun k => binText_getElem? b⟩

/-! ### The comparison by hex text -/

theorem identEq_iff_toHex_eq (i j : Ident) : identEq i j = true ↔ toHex i = toHex j := beq_iff_eq

/-- Different identifiers have different hex texts: LDHEX's operand reads the identifier back from its text (R219). -/
theorem toHex_injective : Function.Injective toHex := by
  intro i j h
  obtain ⟨ndig, val, hi, hoki⟩ := ldhexOfText_toHex i
  obtain ⟨ndig', val', hj, hokj⟩ := ldhexOfText_toHex j
  obtain ⟨rfl, rfl⟩ := Instr.ldhex.inj (hi.symm.trans (h ▸ hj))
  exact Except.ok.inj (hoki.symm.trans hokj)

/-- An identifier is its format and its register (R20 to R22). -/
theorem ident_eq_iff (i j : Ident) : i = j ↔ i.fmt = j.fmt ∧ i.bits = j.bits := by
  refine ⟨fun h => h ▸ ⟨rfl, rfl⟩, fun ⟨hfmt, hbits⟩ => ?_⟩
  cases i with
  | std x =>
    cases j with
    | std y =>
      have hnum := congrArg BitVec.toNat hbits
      rw [bits_std_toNat, bits_std_toNat] at hnum
      exact congrArg Ident.std (BitVec.eq_of_toNat_eq hnum)
    | ext c => exact nomatch hfmt
  | ext b =>
    cases j with
    | std y => exact nomatch hfmt
    | ext c => exact congrArg Ident.ext hbits

/-- Settles O35: equal texts are equal identifiers, and these are a format and a register each. -/
theorem sameHexTextMeansSameIdentifier : Obligations.SameHexTextMeansSameIdentifier := fun i j =>
  (identEq_iff_toHex_eq i j).trans (toHex_injective.eq_iff.trans (ident_eq_iff i j))

/-! ### EQ -/

theorem immediateOperand_std_outOfRange {val : BitVec 29} (h : 0x7FF < val.toNat) :
    immediateOperand .std val = .error .outOfRange := if_pos h

theorem immediateOperand_std_of_le {val : BitVec 29} (h : val.toNat ≤ 0x7FF) :
    immediateOperand .std val = .ok (.std (BitVec.ofNat 11 val.toNat)) := by
  rw [BitVec.ofNat_toNat, BitVec.setWidth_eq_extractLsb' (by decide)]
  exact if_neg h.not_gt

/-- The comparison's one bit as a number (R165). -/
theorem ofBool_identEq_toNat (i j : Ident) :
    (BitVec.ofBool (identEq i j)).toNat = if toHex i = toHex j then 1 else 0 := by
  simp only [BitVec.toNat_ofBool, Bool.toNat, Bool.cond_eq_ite, identEq_iff_toHex_eq]

section
variable {s : State} {i : Ident} {fmt : Format} {val : BitVec 29}

/-- An operand that names no identifier is answered its error, the slot unchanged (R165). -/
theorem exec_eq_of_error {k : Status} (h : s.slot = some i) (hop : immediateOperand fmt val = .error k) :
    exec (.eq fmt val) s = .next (after s (some i) (errorIs k)) := by
  show withIdent s _ = _
  rw [withIdent_some _ h, hop]
  exact h ▸ raise_eq k s

/-- An operand that names an identifier is compared with the one held by their texts (R164, R165). -/
theorem exec_eq_of_ok {j : Ident} (h : s.slot = some i) (hop : immediateOperand fmt val = .ok j) :
    exec (.eq fmt val) s = .next (after s (some i) (okNumber (if toHex i = toHex j then 1 else 0))) := by
  show withIdent s _ = _
  rw [withIdent_some _ h, hop]
  dsimp only
  rw [respond_eq, h, number_eq, ofBool_identEq_toNat]

end

/-- Settles O34, by the order of R165: the slot, the range of a Standard operand, the texts. -/
theorem eqComparesTheHexTexts : Obligations.EqComparesTheHexTexts := by
  refine fun val s => ⟨rfl, rfl, fun h => ⟨withIdent_answers_none h, withIdent_answers_none h⟩, fun i h => ?_⟩
  exact ⟨fun hval => exec_eq_of_error h (immediateOperand_std_outOfRange hval),
    fun hval => exec_eq_of_ok h (immediateOperand_std_of_le hval), exec_eq_of_ok h rfl⟩

end Sys2Proof.Proofs

/-! PROOFS. The errors (spec/60_exceptions.md): the status and the diagnostic of every command on every slot, and what
follows from them for each error kind. -/

namespace Sys2Proof.Proofs

open Sys2Proof.Machine Sys2Proof.Safety Sys2Proof.Laws

/-! ### Illegal words -/

/-- A word that decodes to no command is answered IllegalCmd, whatever is held (R185). -/
theorem runCommand_of_undecodable {w : Word} (h : ∀ i, decode w ≠ .ok i) (s : State) :
    runCommand w s = .next (after s s.slot (errorIs .illegalCmd)) := by
  cases hdec : decode w with
  | ok i => exact absurd hdec (h i)
  | error e => exact runCommand_of_illegal hdec s

/-- Settles O6: the step takes the event and answers the word, which decodes to no command. -/
theorem illegalWordIsAnsweredIllegalCmd : Obligations.IllegalWordIsAnsweredIllegalCmd := by
  intro s w rest hin hdec
  rw [step_command hin, runCommand_of_undecodable hdec]

/-! ### The first error that applies -/

/-- The first error in R189's order whose condition holds, or OK. -/
def firstError (i : Instr) (slot : Option Ident) : Status := (errorOrder.find? (errorApplies i slot)).getD .ok

/-- A first error is an error that applies. -/
theorem errorApplies_of_firstError {i : Instr} {slot : Option Ident} {k : Status} (h : firstError i slot = k)
    (hk : k ≠ .ok) : errorApplies i slot k = true := by
  unfold firstError at h
  cases hfind : errorOrder.find? (errorApplies i slot) with
  | none => rw [hfind] at h; exact absurd h.symm hk
  | some k' =>
    rw [hfind] at h
    exact h ▸ List.find?_some hfind

/-- Without an identifier NoIdentifier comes before every other error of a command (R184). -/
theorem firstError_none {i : Instr} (h : isConstructor i = false) : firstError i none = .noIdentifier := by
  simp [firstError, errorOrder, errorApplies, h]

/-- On a Standard identifier WrongFormat comes before every other error of an Extended-only command (R181). -/
theorem firstError_std {i : Instr} (h : isExtendedOnly i = true) (x : BitVec 11) :
    firstError i (some (.std x)) = .wrongFormat := by
  simp [firstError, errorOrder, errorApplies, h, Ident.fmt]

/-- The status of an operand that names an identifier or an error. -/
def operandStatus : Except Status Ident → Status
  | .ok _ => .ok
  | .error k => k

/-- Where neither NoIdentifier nor WrongFormat applies, the operand alone decides (R189). -/
theorem firstError_operand {i : Instr} {slot : Option Ident} (hno : errorApplies i slot .noIdentifier = false)
    (hfmt : errorApplies i slot .wrongFormat = false) :
    firstError i slot =
      if errorApplies i slot .malformedHex then .malformedHex
      else if errorApplies i slot .outOfRange then .outOfRange
      else if errorApplies i slot .invalidPgn then .invalidPgn
      else .ok := by
  have hcmd : errorApplies i slot .illegalCmd = false := rfl
  simp only [firstError, errorOrder, List.find?, hcmd, hno, hfmt]
  cases errorApplies i slot .malformedHex
  · cases errorApplies i slot .outOfRange
    · cases errorApplies i slot .invalidPgn <;> rfl
    · rfl
  · rfl

theorem firstError_ldhex (ndig : BitVec 4) (val : BitVec 32) (slot : Option Ident) :
    firstError (.ldhex ndig val) slot = operandStatus (hexOperand ndig val) := by
  rw [firstError_operand rfl rfl, hexOperand, apply_ite operandStatus, apply_ite operandStatus]
  simp [errorApplies, operandStatus]

theorem firstError_ldraw (fmt : Format) (val : BitVec 32) (slot : Option Ident) :
    firstError (.ldraw fmt val) slot = operandStatus (rawOperand fmt val) := by
  rw [firstError_operand rfl rfl, rawOperand, apply_ite operandStatus]
  cases fmt <;> simp [errorApplies, operandStatus]

theorem firstError_newx (prio : BitVec 3) (p : BitVec 24) (sa da : BitVec 8) (slot : Option Ident) :
    firstError (.newx prio p sa da) slot = operandStatus (fieldsOperand prio p sa da) := by
  rw [firstError_operand rfl rfl]
  simp only [errorApplies, Bool.false_eq_true, if_false, decide_eq_true_eq]
  by_cases h : PgnAcceptable p.toNat
  · rw [fieldsOperand_accepted h, if_neg (not_not.mpr h), operandStatus]
  · rw [fieldsOperand_rejected h, if_pos h, operandStatus]

theorem firstError_spgn_ext (v : BitVec 24) (b : BitVec 29) :
    firstError (.spgn v) (some (.ext b)) = if PgnAcceptable v.toNat then .ok else .invalidPgn := by
  rw [firstError_operand rfl rfl]
  simp only [errorApplies, Bool.false_eq_true, if_false, decide_eq_true_eq, ite_not]

theorem firstError_eq_some (fmt : Format) (val : BitVec 29) (j : Ident) :
    firstError (.eq fmt val) (some j) = operandStatus (immediateOperand fmt val) := by
  rw [firstError_operand rfl rfl]
  cases fmt with
  | ext => rfl
  | std =>
    rw [immediateOperand, apply_ite operandStatus]
    simp [errorApplies, operandStatus]

/-! ### The status and the diagnostic of a command -/

/-- The diagnostic that R190 gives a command on a slot. -/
def diagnosticOf : Instr → Option Ident → Bool
  | .sda _, some (.ext b) => destWriteDiag b
  | _, _ => false

theorem diagnosticOf_none (i : Instr) : diagnosticOf i none = false := by cases i <;> rfl

theorem diagnosticOf_std (i : Instr) (x : BitVec 11) : diagnosticOf i (some (.std x)) = false := by cases i <;> rfl

theorem diagnosticOf_eq_true_iff {i : Instr} {slot : Option Ident} :
    diagnosticOf i slot = true ↔
      (∃ v, i = .sda v) ∧ ∃ b, slot = some (.ext b) ∧ 240 ≤ b.toNat / 2 ^ 16 % 2 ^ 8 := by
  constructor
  · intro h
    unfold diagnosticOf at h
    split at h
    · next v b => exact ⟨⟨v, rfl⟩, b, rfl, by rwa [destWriteDiag_eq, decide_eq_true_eq] at h⟩
    · cases h
  · rintro ⟨⟨v, rfl⟩, b, rfl, hpf⟩
    rwa [diagnosticOf, destWriteDiag_eq, decide_eq_true_eq]

/-- The outcome is a next state with one more response than `s`, of status `k` and diagnostic `d`. -/
def Answers (s : State) (k : Status) (d : Bool) (o : Host.Outcome State Fault Refusal) : Prop :=
  ∃ slot r, o = .next (after s slot r) ∧ r.status = k ∧ r.diag = d

section
variable {i : Instr} {s : State}

theorem answers_raise (k : Status) : Answers s k false (raise k s) := ⟨_, _, raise_eq k s, rfl, rfl⟩

theorem answers_number {w : Nat} (v : BitVec w) : Answers s .ok false (respond (Response.number v) s) :=
  ⟨_, _, respond_eq _ s, rfl, rfl⟩

theorem answers_string {w : Nat} (len : Nat) (v : BitVec w) :
    Answers s .ok false (respond (Response.string len v) s) := ⟨_, _, respond_eq _ s, rfl, rfl⟩

theorem answers_publish (d : Bool) (j : Ident) : Answers s .ok d (publish d j s) := ⟨_, _, publish_eq d j s, rfl, rfl⟩

theorem answers_construct (r : Except Status Ident) : Answers s (operandStatus r) false (construct r s) := by
  cases r with
  | ok j => exact answers_publish false j
  | error k => exact answers_raise k

/-- What a command ends in, by what the slot holds: its first error and its diagnostic. -/
abbrev AnswersAsSpecified (i : Instr) (s : State) (o : Host.Outcome State Fault Refusal) : Prop :=
  Answers s (firstError i s.slot) (diagnosticOf i s.slot) o

theorem answersAsSpecified_construct {r : Except Status Ident} (herr : firstError i s.slot = operandStatus r)
    (hdiag : diagnosticOf i s.slot = false) : AnswersAsSpecified i s (construct r s) := by
  rw [AnswersAsSpecified, herr, hdiag]
  exact answers_construct r

theorem answersAsSpecified_withIdent {k : Ident → Host.Outcome State Fault Refusal} (hi : isConstructor i = false)
    (h : ∀ j, s.slot = some j → Answers s (firstError i (some j)) (diagnosticOf i (some j)) (k j)) :
    AnswersAsSpecified i s (withIdent s k) := by
  obtain ⟨hs, e⟩ | ⟨j, hs, e⟩ := withIdent_cases s k
  · rw [AnswersAsSpecified, e, hs, firstError_none hi, diagnosticOf_none]
    exact answers_raise _
  · rw [AnswersAsSpecified, e, hs]
    exact h j hs

theorem not_isConstructor_of_isExtendedOnly (h : isExtendedOnly i = true) : isConstructor i = false := by
  cases i with
  | ldhex _ _ | ldraw _ _ | newx _ _ _ _ | news _ _ => cases h
  | _ => rfl

theorem answersAsSpecified_withExt {k : BitVec 29 → Host.Outcome State Fault Refusal} (hi : isExtendedOnly i = true)
    (h : ∀ b, s.slot = some (.ext b) →
      Answers s (firstError i (some (.ext b))) (diagnosticOf i (some (.ext b))) (k b)) :
    AnswersAsSpecified i s (withExt s k) := by
  obtain ⟨hs, e⟩ | ⟨x, hs, e⟩ | ⟨b, hs, e⟩ := withExt_cases s k
  · rw [AnswersAsSpecified, e, hs, firstError_none (not_isConstructor_of_isExtendedOnly hi), diagnosticOf_none]
    exact answers_raise _
  · rw [AnswersAsSpecified, e, hs, firstError_std hi, diagnosticOf_std]
    exact answers_raise _
  · rw [AnswersAsSpecified, e, hs]
    exact h b hs

end

/-- Every command answers its first error and its diagnostic, by its preamble and, past that, by its operand (R189,
R190). -/
theorem exec_answersAsSpecified (i : Instr) (s : State) : AnswersAsSpecified i s (exec i s) := by
  cases i with
  | ldhex ndig val => exact answersAsSpecified_construct (firstError_ldhex ndig val s.slot) rfl
  | ldraw fmt val => exact answersAsSpecified_construct (firstError_ldraw fmt val s.slot) rfl
  | newx prio p sa da => exact answersAsSpecified_construct (firstError_newx prio p sa da s.slot) rfl
  | news prio sa => exact answers_publish _ _
  | gfmt => exact answersAsSpecified_withIdent rfl fun _ _ => answers_number _
  | gprio => exact answersAsSpecified_withIdent rfl fun _ _ => answers_number _
  | gsa => exact answersAsSpecified_withIdent rfl fun _ _ => answers_number _
  | dump => exact answersAsSpecified_withIdent rfl fun _ _ => answers_number _
  | tohex => exact answersAsSpecified_withIdent rfl fun _ _ => answers_string _ _
  | tobin => exact answersAsSpecified_withIdent rfl fun _ _ => answers_string _ _
  | eq fmt val =>
    refine answersAsSpecified_withIdent rfl fun j _ => ?_
    rw [firstError_eq_some]
    cases immediateOperand fmt val with
    | error k => exact answers_raise k
    | ok _ => exact answers_number _
  | sprio v => exact answersAsSpecified_withIdent rfl fun _ _ => answers_publish _ _
  | ssa v => exact answersAsSpecified_withIdent rfl fun _ _ => answers_publish _ _
  | gedp => exact answersAsSpecified_withExt rfl fun _ _ => answers_number _
  | gdp => exact answersAsSpecified_withExt rfl fun _ _ => answers_number _
  | gpf => exact answersAsSpecified_withExt rfl fun _ _ => answers_number _
  | gps => exact answersAsSpecified_withExt rfl fun _ _ => answers_number _
  | gtype => exact answersAsSpecified_withExt rfl fun _ _ => answers_number _
  | gda => exact answersAsSpecified_withExt rfl fun _ _ => answers_number _
  | gpgn => exact answersAsSpecified_withExt rfl fun _ _ => answers_number _
  | sedp v => exact answersAsSpecified_withExt rfl fun _ _ => answers_publish _ _
  | sdp v => exact answersAsSpecified_withExt rfl fun _ _ => answers_publish _ _
  | spf v => exact answersAsSpecified_withExt rfl fun _ _ => answers_publish _ _
  | sps v => exact answersAsSpecified_withExt rfl fun _ _ => answers_publish _ _
  | sda v => exact answersAsSpecified_withExt rfl fun _ _ => answers_publish _ _
  | spgn v =>
    refine answersAsSpecified_withExt rfl fun b hs => ?_
    rw [firstError_spgn_ext]
    by_cases hv : PgnAcceptable v.toNat
    · rw [if_pos hv]
      exact ⟨_, _, (withExt_ext _ hs).symm.trans (exec_spgn_writes hs hv), rfl, rfl⟩
    · rw [if_neg hv]
      exact ⟨_, _, (withExt_ext _ hs).symm.trans (exec_spgn_rejected_by_level hs hv), rfl, rfl⟩

/-- Whatever outcome of a command is known, its response has that status and that diagnostic. -/
theorem response_of_exec {i : Instr} {s : State} {slot : Option Ident} {r : Response}
    (h : exec i s = .next (after s slot r)) : r.status = firstError i s.slot ∧ r.diag = diagnosticOf i s.slot := by
  obtain ⟨slot', r', e, hresponse⟩ := exec_answersAsSpecified i s
  obtain ⟨-, rfl⟩ := after_inj (Host.Outcome.next.inj (h.symm.trans e))
  exact hresponse

/-- An error other than InvalidPgn changes nothing, under either policy (R183, R192). -/
theorem exec_of_firstError {i : Instr} {s : State} {k : Status} (h : firstError i s.slot = k) (hok : k ≠ .ok)
    (hpgn : k ≠ .invalidPgn) : exec i s = .next (after s s.slot (errorIs k)) := by
  obtain ⟨slot, r, e, hends⟩ := exec_ends i s
  have hstatus := (response_of_exec e).1.trans h
  cases hends with
  | failed k' _ => exact hstatus ▸ e
  | answered r hr => exact absurd (hstatus.symm.trans hr) hok
  | wrote d j => exact absurd hstatus.symm hok
  | rejectedPgn c _ _ => exact absurd hstatus.symm hpgn

/-! ### Each error kind -/

theorem slot_of_fmt_std {slot : Option Ident} (h : slot.map Ident.fmt = some .std) : ∃ x, slot = some (.std x) := by
  rcases slot with _ | x | b
  · cases h
  · exact ⟨x, rfl⟩
  · cases h

/-- Settles O39: NoIdentifier is the first error of these commands on an empty slot. -/
theorem noIdentifierBeforeConstruction : Obligations.NoIdentifierBeforeConstruction := by
  intro i s hi hs
  have h := exec_of_firstError (hs ▸ firstError_none hi) (by decide) (by decide)
  rwa [hs] at h

/-- Settles O40: WrongFormat is the first error there, and a first error is one that applies. -/
theorem wrongFormatExactlyOnStandard : Obligations.WrongFormatExactlyOnStandard := by
  intro i s
  constructor
  · rintro ⟨hi, x, hs⟩
    exact exec_of_firstError (hs ▸ firstError_std hi x) (by decide) (by decide)
  · intro slot r hexec hr
    have happlies := errorApplies_of_firstError ((response_of_exec hexec).1.symm.trans hr) (by decide)
    simp only [errorApplies, Bool.and_eq_true, beq_iff_eq] at happlies
    obtain ⟨hi, hfmt⟩ := happlies
    exact ⟨hi, slot_of_fmt_std hfmt⟩

/-- Settles O41: an illegal word is answered before any command's errors are tested. -/
theorem statusIsTheFirstErrorThatApplies : Obligations.StatusIsTheFirstErrorThatApplies := by
  refine ⟨fun w s h => ⟨_, runCommand_of_undecodable h s, rfl⟩, fun i s _ => ?_⟩
  obtain ⟨slot, r, e, hstatus, -⟩ := exec_answersAsSpecified i s
  exact ⟨slot, r, e, hstatus⟩

/-- Settles O45: the diagnostic by the command and the slot; an error's response carries none (R76). -/
theorem diagnosticExactlyForType2DestinationWrite : Obligations.DiagnosticExactlyForType2DestinationWrite := by
  intro w s
  cases hdec : decode w with
  | error e => exact ⟨_, _, runCommand_of_illegal hdec s, nofun, iff_of_false nofun fun ⟨⟨_, hok⟩, _⟩ => nomatch hok⟩
  | ok i =>
    obtain ⟨slot, r, ⟨herror, -⟩, hexec⟩ := exec_answersInForm i s
    obtain ⟨-, hdiag⟩ := response_of_exec hexec
    refine ⟨slot, r, (runCommand_of_decode hdec s).trans hexec, fun hset => ?_, ?_⟩
    · by_contra hstatus
      exact Bool.false_ne_true ((herror hstatus).1.symm.trans hset)
    · simpa only [hdiag, Except.ok.injEq] using diagnosticOf_eq_true_iff

/-! ### The matrix of R188 -/

/-- An error applies only to the commands whose row has it. -/
theorem mayEndIn_of_errorApplies {i : Instr} {slot : Option Ident} {k : Status} (h : errorApplies i slot k = true) :
    mayEndIn i k = true := by
  cases k with
  | ok => rfl
  | illegalCmd => cases h
  | noIdentifier => exact Bool.and_elim_left h
  | wrongFormat => exact Bool.and_elim_left h
  | malformedHex =>
    cases i with
    | ldhex _ _ => rfl
    | _ => cases h
  | outOfRange =>
    cases i with
    | ldhex _ _ | ldraw _ _ | eq _ _ => rfl
    | _ => cases h
  | invalidPgn =>
    cases i with
    | newx _ _ _ _ | spgn _ => rfl
    | _ => cases h

/-- A command ends in OK or in an error of its row. -/
theorem mayEndIn_firstError (i : Instr) (slot : Option Ident) : mayEndIn i (firstError i slot) = true := by
  by_cases hok : firstError i slot = .ok
  · rw [hok]
    rfl
  · exact mayEndIn_of_errorApplies (errorApplies_of_firstError rfl hok)

/-- The command of `i` ends in `k` on some state, with operands that a legal word carries. -/
def ReachesStatus (i : Instr) (k : Status) : Prop :=
  ∃ (j : Instr) (s : State) (slot : Option Ident) (r : Response),
    j.wf = true ∧ j.mnemonic = i.mnemonic ∧ exec j s = .next (after s slot r) ∧ r.status = k

/-- One slot on which `k` is the first error of the command is enough. -/
theorem reachesStatus_of_firstError {i : Instr} {k : Status} (j : Instr) (slot : Option Ident) (hwf : j.wf = true)
    (hname : j.mnemonic = i.mnemonic) (h : firstError j slot = k) : ReachesStatus i k := by
  obtain ⟨slot', r, e, hstatus, -⟩ := exec_answersAsSpecified j { State.reset with slot := slot }
  exact ⟨j, _, slot', r, hwf, hname, e, hstatus.trans h⟩

/-- The command with operands it accepts on an Extended identifier. -/
def withAcceptedOperands : Instr → Instr
  | .ldhex _ _ => .ldhex 8#4 0#32
  | .ldraw _ _ => .ldraw .ext 0#32
  | .newx _ _ _ _ => .newx 0#3 0#24 0#8 0#8
  | .spgn _ => .spgn 0#24
  | .eq _ _ => .eq .ext 0#29
  | i => i

theorem withAcceptedOperands_wf (i : Instr) : (withAcceptedOperands i).wf = true := by cases i <;> rfl

theorem withAcceptedOperands_mnemonic (i : Instr) : (withAcceptedOperands i).mnemonic = i.mnemonic := by
  cases i <;> rfl

theorem firstError_withAcceptedOperands (i : Instr) : firstError (withAcceptedOperands i) (some (.ext 0#29)) = .ok := by
  cases i <;> rfl

theorem wf_of_not_isConstructor {i : Instr} (h : isConstructor i = false) : i.wf = true := by
  cases i with
  | ldhex _ _ => cases h
  | _ => rfl

/-- Each status in a row of R188 is reached: OK by accepted operands, NoIdentifier and WrongFormat by the slot, and the
errors of an operand by an operand out of bounds. -/
theorem reachesStatus_of_mayEndIn {i : Instr} {k : Status} (h : mayEndIn i k = true) : ReachesStatus i k := by
  cases k with
  | ok =>
    exact reachesStatus_of_firstError _ _ (withAcceptedOperands_wf i) (withAcceptedOperands_mnemonic i)
      (firstError_withAcceptedOperands i)
  | noIdentifier =>
    have hi : isConstructor i = false := (Bool.not_eq_true' _).mp h
    exact reachesStatus_of_firstError i none (wf_of_not_isConstructor hi) rfl (firstError_none hi)
  | wrongFormat =>
    exact reachesStatus_of_firstError i _ (wf_of_not_isConstructor (not_isConstructor_of_isExtendedOnly h)) rfl
      (firstError_std h 0#11)
  | malformedHex =>
    cases i with
    | ldhex ndig val => exact reachesStatus_of_firstError (.ldhex 0#4 0#32) none rfl rfl rfl
    | _ => cases h
  | outOfRange =>
    cases i with
    | ldhex ndig val => exact reachesStatus_of_firstError (.ldhex 8#4 0xFFFFFFFF#32) none rfl rfl rfl
    | ldraw fmt val => exact reachesStatus_of_firstError (.ldraw .ext 0xFFFFFFFF#32) none rfl rfl rfl
    | eq fmt val => exact reachesStatus_of_firstError (.eq .std 0x1FFFFFFF#29) (some (.ext 0#29)) rfl rfl rfl
    | _ => cases h
  | invalidPgn =>
    cases i with
    | newx prio p sa da => exact reachesStatus_of_firstError (.newx 0#3 0xFFFFFF#24 0#8 0#8) none rfl rfl rfl
    | spgn v => exact reachesStatus_of_firstError (.spgn 0xFFFFFF#24) (some (.ext 0#29)) rfl rfl rfl
    | _ => cases h
  | illegalCmd => cases h

/-- Settles O42: a command ends in its first error, which its row has, and each entry of the row is a first error. -/
theorem commandByStatusMatrix : Obligations.CommandByStatusMatrix := by
  refine ⟨fun i s => ?_, fun i k => reachesStatus_of_mayEndIn⟩
  obtain ⟨slot, r, e, hstatus, -⟩ := exec_answersAsSpecified i s
  exact ⟨slot, r, e, hstatus ▸ mayEndIn_firstError i s.slot⟩

end Sys2Proof.Proofs

/-! PROOFS. The hazards of destination writes (spec/70_reset_and_hazards.md): the order of a PGN write and a destination
write (R214), and a destination write under PDU type 2 (R215). -/

namespace Sys2Proof.Proofs

open Sys2Proof.Machine Sys2Proof.Safety Sys2Proof.Laws

/-! ### The two commands on an Extended identifier -/

/-- GDA answers the destination address of the bits held (R131). -/
theorem exec_gda_of_slot {t : State} {c : BitVec 29} (h : t.slot = some (.ext c)) :
    exec .gda t = .next (after t t.slot (okNumber (destAddr c).toNat)) :=
  h ▸ withExt_answers_number h rfl

/-- SDA writes `ps` under either type, with the diagnostic of its type (R147). -/
theorem exec_sda_writes {b : BitVec 29} {s : State} (d : BitVec 8) (hs : s.slot = some (.ext b)) :
    exec (.sda d) s = .next (after s (some (.ext (putXPs b d))) (okDone (destWriteDiag b))) :=
  withExt_writes hs rfl rfl

/-! ### A PGN of type 1 and a destination -/

section
variable {v : BitVec 24}

/-- After an accepted PGN of type 1 GDA answers 0, whatever the destination was (R149, R214). -/
theorem exec_gda_of_putPgnParts_type1 {t : State} {b : BitVec 29} (ht : t.slot = some (.ext (putPgnParts b v)))
    (hv : PgnAcceptable v.toNat) (hpf : v.toNat / 2 ^ 8 % 2 ^ 8 < 240) :
    exec .gda t = .next (after t t.slot (okNumber 0)) := by
  rw [exec_gda_of_slot ht, destAddr_putPgnParts b hv, if_pos hpf]
  rfl

/-- A destination written after an accepted PGN of type 1 leaves that PGN (R214). -/
theorem pgn_putXPs_putPgnParts (b : BitVec 29) (d : BitVec 8) (hv : PgnAcceptable v.toNat)
    (hpf : v.toNat / 2 ^ 8 % 2 ^ 8 < 240) : pgn (putXPs (putPgnParts b v) d) = v := by
  have hread : pgn (putPgnParts b v) = v := (pgn_putPgnParts_eq_iff b v).mpr hv
  refine BitVec.eq_of_toNat_eq ?_
  rw [pgn_putXPs_toNat, xPf_putPgnParts, pgnSplit_pf_toNat, if_pos hpf, hread]

/-- A destination written after a PGN of type 1 is the destination held (R214). -/
theorem destAddr_putXPs_putPgnParts (b : BitVec 29) (d : BitVec 8) (hpf : v.toNat / 2 ^ 8 % 2 ^ 8 < 240) :
    destAddr (putXPs (putPgnParts b v) d) = d := by
  rw [destAddr_eq, xPf_putXPs, xPf_putPgnParts, pgnSplit_pf_toNat, if_pos hpf, xPs_putXPs]

end

/-- Settles O29: the PGN write sets `ps` to 0, and the destination write, which sets only `ps`, is kept only after it. -/
theorem pgnThenDestinationIsTheSafeOrder : Obligations.PgnThenDestinationIsTheSafeOrder := by
  refine fun v d b s hs hv hpf => ⟨?_, ?_⟩
  · exact ⟨_, _, putXPs (putPgnParts b v) d, exec_spgn_writes hs hv, exec_gda_of_putPgnParts_type1 rfl hv hpf,
      exec_sda_writes d rfl, rfl, pgn_putXPs_putPgnParts b d hv hpf, destAddr_putXPs_putPgnParts b d hpf,
      (xPrio_putXPs _ d).trans (xPrio_putPgnParts b v), (xSa_putXPs _ d).trans (xSa_putPgnParts b v)⟩
  · exact ⟨_, _, exec_sda_writes d hs, exec_spgn_writes rfl hv, exec_gda_of_putPgnParts_type1 rfl hv hpf⟩

/-! ### A destination under type 2 -/

section
variable {b : BitVec 29}

/-- Under type 2 a destination write replaces the low byte of the PGN (R151, R215). -/
theorem pgn_putXPs_toNat_of_type2 (v : BitVec 8) (hpf : 240 ≤ (xPf b).toNat) :
    (pgn (putXPs b v)).toNat = (pgn b).toNat / 2 ^ 8 * 2 ^ 8 + v.toNat := by
  rw [pgn_putXPs_toNat, if_neg (Nat.not_lt.mpr hpf), replacedBits]
  omega

/-- Under type 2 a destination write leaves the global address as the destination (R151, R215). -/
theorem destAddr_putXPs_of_type2 (v : BitVec 8) (hpf : 240 ≤ (xPf b).toNat) : destAddr (putXPs b v) = 255#8 := by
  rw [destAddr_eq, xPf_putXPs, if_neg (Nat.not_lt.mpr hpf)]

end

/-- Settles O30: the type stays 2, so the byte written is in the PGN and the destination is the global address. -/
theorem destinationWriteUnderType2ChangesThePgn : Obligations.DestinationWriteUnderType2ChangesThePgn := by
  intro v b s hs htype2
  have hdiag : destWriteDiag b = true := (destWriteDiag_eq b).trans (decide_eq_true htype2)
  have hpf : 240 ≤ (xPf b).toNat := (xPf_toNat b).symm ▸ htype2
  refine ⟨putXPs b v, hdiag ▸ exec_sda_writes v hs, pgn_putXPs_toNat_of_type2 v hpf, fun t ht => ?_⟩
  rw [exec_gda_of_slot ht, destAddr_putXPs_of_type2 v hpf]
  rfl

end Sys2Proof.Proofs
